-- ==== Sys2Proof/Word.lean ====
section
/-! DEFINITION. The word types of the wire and of the machine: spec/00_scope.md rules R10, R12. -/

namespace Sys2Proof

/-- One byte; bit 7 is the most significant bit (R10). -/
abbrev Byte := BitVec 8

/-- A finite sequence of bytes, byte 0 first (R10). -/
abbrev Bytes := List Byte

/-- A stream ID: a 31-bit unsigned number (R12, R68). -/
abbrev StreamId := BitVec 31

/-- The 15-bit version field of a control frame (R91, R94). -/
abbrev VersionTag := BitVec 15

/-- The 16-bit type field of a control frame (R95). -/
abbrev TypeCode := BitVec 16

/-- The 24-bit ID of a SETTINGS entry (R103). -/
abbrev SettingsId := BitVec 24

/-- A 32-bit word: status codes, PING IDs, SETTINGS values (R102 to R105). -/
abbrev Word32 := BitVec 32

/-- A size in `0 .. 2^31 - 1`: the range R7 and R32 give the initial windows. -/
abbrev Credit := Fin (2 ^ 31)

/-- The upper bound of every flow-control window, `2^31 - 1` (R27). -/
abbrev maxWindow : Int := 2 ^ 31 - 1

/-- The largest payload a 24-bit length field announces, `LENGTH_MASK` (R8, R69). -/
abbrev maxPayload : Nat := 0xFFFFFF

/-- The largest stream ID, `STREAM_ID_MASK` (R8, R68). -/
abbrev maxStreamId : Nat := 0x7FFFFFFF

end Sys2Proof
end

