-- ==== Sys2Proof/Config.lean ====
section
/-! DEFINITION. What an implementation fixes: the configuration record (spec/00_scope.md R7), the
named constants whose numbers the spec leaves as parameters with defaults (R9), and the one free
value of the machine, the Boolean draw of spec/60_exceptions.md R346. -/

namespace Sys2Proof

/-- Which stream-ID parity is local (R7). -/
inductive Role where
  | client
  | server
deriving DecidableEq, Repr

/-- The policy for an out-of-range tier on encode (R7, R174, R301). -/
inductive Build where
  | debug
  | release
deriving DecidableEq, Repr

/-- The two revisions of the wire protocol (R2). Their numeric tags are parameters (R9). -/
inductive Revision where
  | legacy
  | newer
deriving DecidableEq, Repr

/-- The eight recognised control types (R95). Their numeric codes are parameters (R9). -/
inductive ControlType where
  | synStream
  | synReply
  | rstStream
  | settings
  | ping
  | goaway
  | headers
  | windowUpdate
deriving DecidableEq, Repr

/-- All eight control types, in the order of R95. -/
def ControlType.all : List ControlType :=
  [.synStream, .synReply, .rstStream, .settings, .ping, .goaway, .headers, .windowUpdate]

/-- The named constants of R9. The spec gives each a default and asks a model to take them as
arguments (spec/93_implementation_defined.md part 2); every operation of this model reads them from
here, so a statement about all states holds for every choice of them. -/
structure Params where
  vLegacy : VersionTag
  vNewer : VersionTag
  typeSynStream : TypeCode
  typeSynReply : TypeCode
  typeRstStream : TypeCode
  typeSettings : TypeCode
  typePing : TypeCode
  typeGoaway : TypeCode
  typeHeaders : TypeCode
  typeWindowUpdate : TypeCode
  flagFin : Byte
  flagCompressed : Byte
  dataFlagsMask : Byte
  controlFlagsMask : Byte
  defaultInitialWindow : Credit
  settingsMaxConcurrentStreams : SettingsId
  settingsInitialWindowSize : SettingsId
  rstProtocolError : Word32
  rstInvalidStream : Word32
  rstRefusedStream : Word32
  rstCancel : Word32
  rstFlowControlError : Word32
  goawayOk : Word32
  goawayProtocolError : Word32
deriving DecidableEq, Repr

/-- The defaults R9 prints. PRESUMED by the spec itself ("from general knowledge, not in source");
log entry 2. -/
def Params.default : Params where
  vLegacy := 2
  vNewer := 3
  typeSynStream := 1
  typeSynReply := 2
  typeRstStream := 3
  typeSettings := 4
  typePing := 6
  typeGoaway := 7
  typeHeaders := 8
  typeWindowUpdate := 9
  flagFin := 0x01
  flagCompressed := 0x02
  dataFlagsMask := 0x03
  controlFlagsMask := 0x03
  defaultInitialWindow := 65536
  settingsMaxConcurrentStreams := 4
  settingsInitialWindowSize := 7
  rstProtocolError := 1
  rstInvalidStream := 2
  rstRefusedStream := 3
  rstCancel := 5
  rstFlowControlError := 7
  goawayOk := 0
  goawayProtocolError := 1

/-- The code of a control type (R9, R95). -/
def Params.typeCode (p : Params) : ControlType → TypeCode
  | .synStream => p.typeSynStream
  | .synReply => p.typeSynReply
  | .rstStream => p.typeRstStream
  | .settings => p.typeSettings
  | .ping => p.typePing
  | .goaway => p.typeGoaway
  | .headers => p.typeHeaders
  | .windowUpdate => p.typeWindowUpdate

/-- The eight one-bit bytes. -/
def singleBits : List Byte := [0x01, 0x02, 0x04, 0x08, 0x10, 0x20, 0x40, 0x80]

/-- What spec/93_implementation_defined.md G1 to G6 require of the parameters and no more: distinct
version tags, distinct type codes, two distinct single-bit flags whose union is the data-flag mask,
a control-flag mask that contains `FLAG_FIN`, and distinct codes for the RST_STREAM statuses SUB004
originates. -/
def Params.wf (p : Params) : Bool :=
  decide (p.vLegacy ≠ p.vNewer)
    && decide ((ControlType.all.map p.typeCode).Nodup)
    && decide (p.flagFin ∈ singleBits) && decide (p.flagCompressed ∈ singleBits)
    && decide (p.flagFin ≠ p.flagCompressed)
    && decide (p.dataFlagsMask = p.flagFin ||| p.flagCompressed)
    && decide (p.flagFin &&& p.controlFlagsMask = p.flagFin)
    && decide ([p.rstProtocolError, p.rstInvalidStream, p.rstRefusedStream,
        p.rstFlowControlError].Nodup)

/-- The configuration record (R7, R31), fixed at reset. The ranges R7 gives are the field types;
the two lower bounds it gives are in `Cfg.wf`. `params` holds the constants of R9. -/
structure Cfg where
  role : Role
  version : Revision
  build : Build
  maxPeerStreams : Nat
  localInitialWindow : Credit
  sessionInitialWindow : Credit
  rxBufMax : Nat
  maxDataPayload : Fin (2 ^ 24)
  params : Params
deriving DecidableEq, Repr

/-- The bounds of R7 that the field types leave open, and the conditions on the constants. -/
def Cfg.wf (c : Cfg) : Bool :=
  decide (8 ≤ c.rxBufMax) && decide (1 ≤ c.maxDataPayload.val) && c.params.wf

/-- The configuration `cfg0` of spec/95_test_vectors.md, with the defaults R7 and R9 print. R7 gives
no default for the role, the version, the build and the peer limit: DESIGN CHOICE, log entry 1. -/
def Cfg.default : Cfg where
  role := .client
  version := .newer
  build := .release
  maxPeerStreams := 100
  localInitialWindow := 65536
  sessionInitialWindow := 65536
  rxBufMax := 8 + 0xFFFFFF
  maxDataPayload := 0xFFFFFF
  params := Params.default

/-- `flush_draw` of R346: whether the `n`-th best-effort flush on a blocked transport gets the
GOAWAY out. A FREE VALUE: no body, so nothing can be proved about it (log entry 3). -/
opaque Config.flushDraw : Nat → Bool

end Sys2Proof
end

