-- ==== Sys2Proof/Syntax.lean ====
section
/-! DEFINITION. The nine frames (spec/00_scope.md R12), one constructor per row of
spec/opcode_table.json. A received frame is what SUB004 executes (R6); the same values wait in the
scheduler's queues and are encoded when they leave (R220). The `length` of a frame is not stored:
it is a function of the other fields (R12, R96). -/

namespace Sys2Proof

/-- One entry of a SETTINGS frame (R103). -/
structure SettingsEntry where
  eflags : Byte
  id : SettingsId
  value : Word32
deriving DecidableEq, Repr

/-- A frame (R12). The control constructors carry the version and the flags of their header. -/
inductive Instr where
  /-- DATA: R92, R108, R266. -/
  | data (sid : StreamId) (flags : Byte) (payload : Bytes)
  /-- SYN_STREAM: R100, R263. -/
  | synStream (ver : VersionTag) (flags : Byte) (sid : StreamId) (assoc : StreamId) (tier : Fin 8) (hb : Bytes)
  /-- SYN_REPLY: R101, R264. -/
  | synReply (ver : VersionTag) (flags : Byte) (sid : StreamId) (hb : Bytes)
  /-- RST_STREAM: R102, R271. -/
  | rstStream (ver : VersionTag) (flags : Byte) (sid : StreamId) (status : Word32)
  /-- SETTINGS: R103, R267. -/
  | settings (ver : VersionTag) (flags : Byte) (entries : List SettingsEntry)
  /-- PING: R104, R269. -/
  | ping (ver : VersionTag) (flags : Byte) (id : Word32)
  /-- GOAWAY: R105, R270. -/
  | goaway (ver : VersionTag) (flags : Byte) (lastGood : StreamId) (status : Word32)
  /-- HEADERS: R106, R265. -/
  | headers (ver : VersionTag) (flags : Byte) (sid : StreamId) (tier : Fin 8) (hb : Bytes)
  /-- WINDOW_UPDATE: R107, R268. -/
  | windowUpdate (ver : VersionTag) (flags : Byte) (sid : StreamId) (delta : BitVec 31)
deriving DecidableEq, Repr

/-- The control type of a frame; `none` for DATA (R12). -/
def Instr.controlType? : Instr → Option ControlType
  | .data _ _ _ => none
  | .synStream _ _ _ _ _ _ => some .synStream
  | .synReply _ _ _ _ => some .synReply
  | .rstStream _ _ _ _ => some .rstStream
  | .settings _ _ _ => some .settings
  | .ping _ _ _ => some .ping
  | .goaway _ _ _ _ => some .goaway
  | .headers _ _ _ _ _ => some .headers
  | .windowUpdate _ _ _ _ => some .windowUpdate

/-- The version field; "the version of a data frame does not exist" (R94). -/
def Instr.ver? : Instr → Option VersionTag
  | .data _ _ _ => none
  | .synStream ver _ _ _ _ _ => some ver
  | .synReply ver _ _ _ => some ver
  | .rstStream ver _ _ _ => some ver
  | .settings ver _ _ => some ver
  | .ping ver _ _ => some ver
  | .goaway ver _ _ _ => some ver
  | .headers ver _ _ _ _ => some ver
  | .windowUpdate ver _ _ _ => some ver

/-- The flags byte (R97, R98). -/
def Instr.flags : Instr → Byte
  | .data _ flags _ => flags
  | .synStream _ flags _ _ _ _ => flags
  | .synReply _ flags _ _ => flags
  | .rstStream _ flags _ _ => flags
  | .settings _ flags _ => flags
  | .ping _ flags _ => flags
  | .goaway _ flags _ _ => flags
  | .headers _ flags _ _ _ => flags
  | .windowUpdate _ flags _ _ => flags

/-- The tier of the two frames that carry a priority byte (R99). -/
def Instr.tier? : Instr → Option (Fin 8)
  | .data _ _ _ => none
  | .synStream _ _ _ _ tier _ => some tier
  | .synReply _ _ _ _ => none
  | .rstStream _ _ _ _ => none
  | .settings _ _ _ => none
  | .ping _ _ _ => none
  | .goaway _ _ _ _ => none
  | .headers _ _ _ tier _ => some tier
  | .windowUpdate _ _ _ _ => none

/-- `plen`: the payload size in bytes (R96). -/
def Instr.plen : Instr → Nat
  | .data _ _ payload => payload.length
  | .synStream _ _ _ _ _ hb => 10 + hb.length
  | .synReply _ _ _ hb => 4 + hb.length
  | .rstStream _ _ _ _ => 8
  | .settings _ _ entries => 4 + 8 * entries.length
  | .ping _ _ _ => 4
  | .goaway _ _ _ _ => 8
  | .headers _ _ _ _ hb => 6 + hb.length
  | .windowUpdate _ _ _ _ => 8

end Sys2Proof
end

