-- ==== Sys2Proof/Machine/Flags.lean ====
section
/-! DEFINITION. The flags byte: its legal bits per frame class and `FLAG_FIN`
(spec/30_encoding.md R97, R98; spec/40_codec_decode.md R144). -/

namespace Sys2Proof.Machine

/-- No bit outside `mask` is set: `flags & ~mask = 0` (R144, R171). -/
def withinMask (mask flags : Byte) : Bool :=
  decide (flags &&& ~~~mask = 0)

/-- The legal mask of a frame class: control when `ctl`, else data. It does not depend on the
control type (R97, R144). -/
def flagsMask (p : Params) (ctl : Bool) : Byte :=
  if ctl then p.controlFlagsMask else p.dataFlagsMask

/-- The flags of a frame are legal for its class (R171 condition 2). -/
def flagsLegal (p : Params) (f : Instr) : Bool :=
  withinMask (flagsMask p f.controlType?.isSome) f.flags

/-- `flags & FLAG_FIN != 0`, the test of R263 to R266. -/
def finSet (p : Params) (flags : Byte) : Bool :=
  decide (flags &&& p.flagFin ≠ 0)

end Sys2Proof.Machine
end

