-- ==== Sys2Proof/Machine/Operands.lean ====
section
/-! DEFINITION. The operand fields: version tags, type codes, the priority byte and the tier, stream-ID
parity (spec/00_scope.md R8, spec/30_encoding.md R94, R95, R99, spec/42_stream_table.md R191). -/

namespace Sys2Proof.Machine

/-- The wire tag of a revision (R9, R94). -/
def versionTag (p : Params) : Revision → VersionTag
  | .legacy => p.vLegacy
  | .newer => p.vNewer

/-- The recognised revisions and no others (R94, R142). -/
def revisionOf (p : Params) (ver : VersionTag) : Option Revision :=
  if ver = p.vLegacy then some .legacy
  else if ver = p.vNewer then some .newer
  else none

/-- The recognised type codes and no others (R95, R143). -/
def controlTypeOf (p : Params) (typ : TypeCode) : Option ControlType :=
  ControlType.all.find? (fun k => decide (p.typeCode k = typ))

/-- The version every frame of the session carries: the tag of `cfg.version` (R178, R262). -/
def wireVersion (c : Cfg) : VersionTag :=
  versionTag c.params c.version

/-- `PRI_MASK` (R8): the top 3 bits for the newer revision, the top 2 for the legacy one. -/
def priMask : Revision → Byte
  | .legacy => 0xC0
  | .newer => 0xE0

/-- `PRI_SHIFT` (R8). -/
def priShift : Revision → Nat
  | .legacy => 6
  | .newer => 5

/-- `N_TIERS` (R8). -/
def nTiers : Revision → Nat
  | .legacy => 4
  | .newer => 8

/-- `tier(v, p) = (p & PRI_MASK(v)) >> PRI_SHIFT(v)` (R99). -/
def tierOfByte (r : Revision) (b : Byte) : Fin 8 :=
  Fin.ofNat 8 ((b &&& priMask r) >>> priShift r).toNat

/-- `pbyte(v, t) = t << PRI_SHIFT(v)` (R99). -/
def byteOfTier (r : Revision) (t : Nat) : Byte :=
  BitVec.ofNat 8 t <<< priShift r

/-- `PB(ver, t)` of R174: an out-of-range tier raises (`none`) in a debug build and is clamped to the
last tier in a release build. -/
def priorityByte (build : Build) (r : Revision) (t : Nat) : Option Byte :=
  if t < nTiers r then some (byteOfTier r t)
  else match build with
    | .debug => none
    | .release => some (byteOfTier r (nTiers r - 1))

/-- `TIER_POLICY` of R301 on an application priority: `none` is the debug-build fault. -/
def tierPolicy (c : Cfg) (priority : Nat) : Option (Fin 8) :=
  if priority < nTiers c.version then some (Fin.ofNat 8 priority)
  else match c.build with
    | .debug => none
    | .release => some (Fin.ofNat 8 (nTiers c.version - 1))

/-- `local_parity` (R191): odd for the client, even for the server. -/
def localParity : Role → Nat
  | .client => 1
  | .server => 0

/-- `is_local(sid)` (R191); `is_peer` is its negation. -/
def isLocal (role : Role) (sid : StreamId) : Bool :=
  decide (sid.toNat % 2 = localParity role)

end Sys2Proof.Machine
end

