-- ==== Sys2Proof/WellFormed.lean ====
section
/-! DEFINITION. Well-formed frames: spec/41_codec_encode.md R171, and the tier condition R174. The
typing condition (1) of R171 holds by construction of `Instr`. -/

namespace Sys2Proof

/-- The version of a control frame is recognised (R171 condition 4); a data frame has none. -/
def Instr.versionKnown (p : Params) (f : Instr) : Bool :=
  match f.ver? with
  | none => true
  | some ver => (Machine.revisionOf p ver).isSome

/-- `WF(f)` of R171: legal flags, a payload that fits the length field, a recognised version. -/
def Instr.wf (p : Params) (f : Instr) : Bool :=
  Machine.flagsLegal p f && decide (f.plen ≤ maxPayload) && f.versionKnown p

/-- The tier, where there is one, is below `N_TIERS` of the frame's own version (R174). -/
def Instr.tierOk (p : Params) (f : Instr) : Bool :=
  match f.ver?, f.tier? with
  | some ver, some tier =>
    match Machine.revisionOf p ver with
    | some r => decide (tier.val < Machine.nTiers r)
    | none => false
  | _, _ => true

end Sys2Proof
end

