-- ==== Sys2Proof/Decode.lean ====
section
/-! DEFINITION. The frame codec: `decode` (spec/40_codec_decode.md R140 to R152), `encode`
(spec/41_codec_encode.md R170 to R175), the big-endian reads and writes they use (R11, R62), and the
reading of an opcode-table word. -/

namespace Sys2Proof

/-! ### Bytes, big-endian (R11, R62) -/

/-- The unsigned big-endian value of a byte sequence (R11). -/
def beValue (bs : Bytes) : Nat :=
  bs.foldl (fun acc b => acc * 256 + b.toNat) 0

/-- The `n`-byte big-endian form of `v` (R11 `MemWrite`). -/
def beBytes : Nat → Nat → Bytes
  | 0, _ => []
  | n + 1, v => BitVec.ofNat 8 (v / 256 ^ n) :: beBytes n v

/-! ### Errors -/

/-- Sub-reasons of `Malformed` (R140, R332). `frameTooLarge` is raised by the receive loop only
(R261); `decode` never answers it. -/
inductive MalformedSub where
  | tooShort
  | lengthExceedsBuffer
  | truncated
  | badPayloadLength
  | frameTooLarge
deriving DecidableEq, Repr

/-- Sub-reasons of `IllegalBits` (R140, R332). -/
inductive IllegalBitsSub where
  | flags
  | streamIdHighBit
  | reserved
deriving DecidableEq, Repr

/-- `DecodeError` (R140). `outOfBounds` is the MODEL's own: it is what a read past the end of the
buffer would answer, so that "never reads out of bounds" (R140) can be stated; no input reaches it
(log entry 7). -/
inductive DecodeError where
  | malformed (sub : MalformedSub)
  | illegalBits (sub : IllegalBitsSub)
  | unknownFrameType (type : TypeCode)
  | unknownVersion (version : VersionTag)
  | outOfBounds
deriving DecidableEq, Repr

/-- `EncodeRefused` reasons (R170). `undefinedVersion` is the MODEL's name for the case in which
R171 says that encode "is not defined" (condition 4; log entry 8). -/
inductive EncodeRefusal where
  | illegalFlags
  | tooLong
  | undefinedVersion
deriving DecidableEq, Repr

/-- `EncodeFault` reasons (R170). -/
inductive EncodeFault where
  | tierRange
deriving DecidableEq, Repr

/-- `EncodeResult` (R170). -/
inductive EncodeResult where
  | bytes (buf : Bytes)
  | fault (why : EncodeFault)
  | refused (why : EncodeRefusal)
deriving DecidableEq, Repr

/-! ### Decode -/

/-- `MemRead(off, n)` over the frame buffer `F` (R11); a read past the end answers `outOfBounds`. -/
def memRead (F : Bytes) (off n : Nat) : Except DecodeError Nat :=
  if off + n ≤ F.length then .ok (beValue ((F.drop off).take n)) else .error .outOfBounds

/-- `SID(off)` (R147): a 31-bit stream ID whose word has its high bit clear. -/
def readStreamId (F : Bytes) (off : Nat) : Except DecodeError StreamId := do
  let w ← memRead F off 4
  if w.testBit 31 then .error (.illegalBits .streamIdHighBit) else .ok (BitVec.ofNat 31 w)

/-- `PRI(off)` (R147): the tier; the bits outside the revision's mask must be 0. -/
def readTier (F : Bytes) (r : Revision) (off : Nat) : Except DecodeError (Fin 8) := do
  let b ← memRead F off 1
  if Machine.withinMask (Machine.priMask r) (BitVec.ofNat 8 b) then
    .ok (Machine.tierOfByte r (BitVec.ofNat 8 b))
  else .error (.illegalBits .reserved)

/-- `ZERO(off)` (R147): a reserved byte. -/
def readZero (F : Bytes) (off : Nat) : Except DecodeError Unit := do
  let b ← memRead F off 1
  if b ≠ 0 then .error (.illegalBits .reserved) else .ok ()

/-- `D31(off)` (R147): the window delta. -/
def readDelta (F : Bytes) (off : Nat) : Except DecodeError (BitVec 31) := do
  let w ← memRead F off 4
  if w.testBit 31 then .error (.illegalBits .reserved) else .ok (BitVec.ofNat 31 w)

/-- Any 32-bit word: `MemRead(off, 4)`. -/
def readWord (F : Bytes) (off : Nat) : Except DecodeError Word32 := do
  let w ← memRead F off 4
  .ok (BitVec.ofNat 32 w)

/-- The SETTINGS entries at `off`, `off + 8`, …, `count` of them (R103, R149). -/
def readEntries (F : Bytes) : Nat → Nat → Except DecodeError (List SettingsEntry)
  | 0, _ => .ok []
  | count + 1, off => do
    let eflags ← memRead F off 1
    let id ← memRead F (off + 1) 3
    let value ← memRead F (off + 4) 4
    let rest ← readEntries F count (off + 8)
    .ok (⟨BitVec.ofNat 8 eflags, BitVec.ofNat 24 id, BitVec.ofNat 32 value⟩ :: rest)

/-- Step (e2), R146: may a frame of this type have this length? The SETTINGS conjuncts are evaluated
left to right, so its count is read only when `length >= 4`. -/
def lengthLegal (F : Bytes) (length : Nat) : ControlType → Except DecodeError Bool
  | .synStream => .ok (decide (10 ≤ length))
  | .synReply => .ok (decide (4 ≤ length))
  | .rstStream => .ok (decide (length = 8))
  | .settings =>
    if 4 ≤ length ∧ (length - 4) % 8 = 0 then do
      let n ← memRead F 8 4
      .ok (decide (n = (length - 4) / 8))
    else .ok false
  | .ping => .ok (decide (length = 4))
  | .goaway => .ok (decide (length = 8))
  | .headers => .ok (decide (6 ≤ length))
  | .windowUpdate => .ok (decide (length = 8))

/-- Step (f) and the control results, R147 and R149: fields in ascending offset, the first violation
raised. `F` holds exactly `8 + length` bytes here, so a header block runs to the end of `F`. -/
def decodeBody (F : Bytes) (ver : VersionTag) (r : Revision) (flags : Byte) :
    ControlType → Except DecodeError Instr
  | .synStream => do
    let sid ← readStreamId F 8
    let assoc ← readStreamId F 12
    let tier ← readTier F r 16
    readZero F 17
    .ok (.synStream ver flags sid assoc tier (F.drop 18))
  | .synReply => do
    let sid ← readStreamId F 8
    .ok (.synReply ver flags sid (F.drop 12))
  | .rstStream => do
    let sid ← readStreamId F 8
    let status ← readWord F 12
    .ok (.rstStream ver flags sid status)
  | .settings => do
    let count ← memRead F 8 4
    let entries ← readEntries F count 12
    .ok (.settings ver flags entries)
  | .ping => do
    let id ← readWord F 8
    .ok (.ping ver flags id)
  | .goaway => do
    let lastGood ← readStreamId F 8
    let status ← readWord F 12
    .ok (.goaway ver flags lastGood status)
  | .headers => do
    let sid ← readStreamId F 8
    let tier ← readTier F r 12
    readZero F 13
    .ok (.headers ver flags sid tier (F.drop 14))
  | .windowUpdate => do
    let sid ← readStreamId F 8
    let delta ← readDelta F 12
    .ok (.windowUpdate ver flags sid delta)

/-- Steps (c) to (f) of a control frame whose header reads `ver`, `typ`, `flags`, `length`
(R142 to R147, R149), in the order of R150. -/
def decodeControl (p : Params) (F : Bytes) (ver : VersionTag) (typ : TypeCode) (flags : Byte)
    (length : Nat) : Except DecodeError Instr :=
  match Machine.revisionOf p ver with
  | none => .error (.unknownVersion ver)
  | some r =>
    match Machine.controlTypeOf p typ with
    | none => .error (.unknownFrameType typ)
    | some k =>
      if ¬ Machine.withinMask (Machine.flagsMask p true) flags then .error (.illegalBits .flags)
      else if F.length - 8 < length then .error (.malformed .lengthExceedsBuffer)
      else if length < F.length - 8 then .error (.malformed .truncated)
      else do
        let ok ← lengthLegal F length k
        if ok then decodeBody F ver r flags k else .error (.malformed .badPayloadLength)

/-- Steps (d) and (e) of a data frame and its result (R144, R145, R148). -/
def decodeData (p : Params) (F : Bytes) (sid : StreamId) (flags : Byte) (length : Nat) :
    Except DecodeError Instr :=
  if ¬ Machine.withinMask (Machine.flagsMask p false) flags then .error (.illegalBits .flags)
  else if F.length - 8 < length then .error (.malformed .lengthExceedsBuffer)
  else if length < F.length - 8 then .error (.malformed .truncated)
  else .ok (.data sid flags (F.drop 8))

/-- `decode : Bytes -> Frame | DecodeError` (R140 to R149): total and pure, on any buffer. -/
def decode (p : Params) (F : Bytes) : Except DecodeError Instr :=
  if F.length < 8 then .error (.malformed .tooShort)
  else do
    let w01 ← memRead F 0 2
    let flags ← memRead F 4 1
    let length ← memRead F 5 3
    if w01.testBit 15 then do
      let typ ← memRead F 2 2
      decodeControl p F (BitVec.ofNat 15 w01) (BitVec.ofNat 16 typ) (BitVec.ofNat 8 flags) length
    else do
      let word ← memRead F 0 4
      decodeData p F (BitVec.ofNat 31 word) (BitVec.ofNat 8 flags) length

/-! ### Encode -/

/-- One SETTINGS entry on the wire (R103, R175). -/
def encodeEntry (e : SettingsEntry) : Bytes :=
  beBytes 1 e.eflags.toNat ++ beBytes 3 e.id.toNat ++ beBytes 4 e.value.toNat

/-- The payload bytes of a frame (R172, R175); `none` is the raise of `PB` (R174). Reserved bits and
bytes are written as 0. -/
def encodePayload (build : Build) (r : Revision) : Instr → Option Bytes
  | .data _ _ payload => some payload
  | .synStream _ _ sid assoc tier hb =>
    (Machine.priorityByte build r tier.val).map fun b =>
      beBytes 4 sid.toNat ++ beBytes 4 assoc.toNat ++ [b, 0] ++ hb
  | .synReply _ _ sid hb => some (beBytes 4 sid.toNat ++ hb)
  | .rstStream _ _ sid status => some (beBytes 4 sid.toNat ++ beBytes 4 status.toNat)
  | .settings _ _ entries => some (beBytes 4 entries.length ++ entries.flatMap encodeEntry)
  | .ping _ _ id => some (beBytes 4 id.toNat)
  | .goaway _ _ lastGood status => some (beBytes 4 lastGood.toNat ++ beBytes 4 status.toNat)
  | .headers _ _ sid tier hb =>
    (Machine.priorityByte build r tier.val).map fun b =>
      beBytes 4 sid.toNat ++ [b, 0] ++ hb
  | .windowUpdate _ _ sid delta => some (beBytes 4 sid.toNat ++ beBytes 4 delta.toNat)

/-- The 8 header bytes of a control frame (R91, R173). -/
def controlHeader (ver : VersionTag) (typ : TypeCode) (flags : Byte) (plen : Nat) : Bytes :=
  beBytes 2 (0x8000 + ver.toNat) ++ beBytes 2 typ.toNat ++ beBytes 1 flags.toNat ++ beBytes 3 plen

/-- The 8 header bytes of a data frame (R92, R172). -/
def dataHeader (sid : StreamId) (flags : Byte) (plen : Nat) : Bytes :=
  beBytes 4 sid.toNat ++ beBytes 1 flags.toNat ++ beBytes 3 plen

/-- `encode : Frame -> EncodeResult` (R170 to R175), with the build policy of R174. -/
def encode (p : Params) (build : Build) (f : Instr) : EncodeResult :=
  if ¬ Machine.flagsLegal p f then .refused .illegalFlags
  else if maxPayload < f.plen then .refused .tooLong
  else
    match f with
    | .data sid flags payload => .bytes (dataHeader sid flags payload.length ++ payload)
    | f =>
      match f.ver?, f.controlType? with
      | some ver, some k =>
        match Machine.revisionOf p ver with
        | none => .refused .undefinedVersion
        | some r =>
          match encodePayload build r f with
          | none => .fault .tierRange
          | some payload => .bytes (controlHeader ver (p.typeCode k) f.flags f.plen ++ payload)
      | _, _ => .refused .undefinedVersion

/-! ### The frame length in a header, and opcode-table words -/

/-- The 24-bit length in bytes 5 to 7 of a buffered header (R112, R261). -/
def headerLength (buf : Bytes) : Nat :=
  beValue ((buf.drop 5).take 3)

/-- The bytes an opcode-table word stands for: the table numbers the 64-bit big-endian header word
`H` (R91, R113), so each 64 bits of `w` are 8 bytes, most significant byte first, words in ascending
order (log entry 6). -/
def tableWordBytes : Nat → Nat → Bytes
  | 0, _ => []
  | words + 1, w => beBytes 8 (w % 2 ^ 64) ++ tableWordBytes words (w / 2 ^ 64)

/-- The frame buffer of an opcode-table word: its bytes, then zeros up to the length its header
announces (R112). -/
def tableFrame (nbits w : Nat) : Bytes :=
  let bytes := tableWordBytes (max 1 ((nbits + 63) / 64)) w
  let total := 8 + headerLength bytes
  bytes.take total ++ List.replicate (total - bytes.length) 0

/-- What the decoder reads from an opcode-table word, under the default constants of R9. -/
def decodeTableWord (nbits w : Nat) : Option Instr :=
  match decode Params.default (tableFrame nbits w) with
  | .ok i => some i
  | .error _ => none

end Sys2Proof
end

