-- ==== Sys2Proof/Machine/Port.lean ====
section
/-! DEFINITION. The records of the host port: commands, results, events and TX items
(spec/00_scope.md R13), and the reason codes they carry (spec/60_exceptions.md R330, R332). -/

namespace Sys2Proof.Machine

/-- Sub-reasons of `FLOW_CONTROL_VIOLATION` (R332). -/
inductive FlowControlSub where
  | recvWindowExceeded
  | windowOverflow
  | initialWindowRange
deriving DecidableEq, Repr

/-- Sub-reasons of `UNKNOWN_VERSION` (R332). -/
inductive UnknownVersionSub where
  | unrecognised
  | versionMismatch
deriving DecidableEq, Repr

/-- Sub-reasons of `SESSION_PROTOCOL_ERROR` (R332). -/
inductive SessionProtocolSub where
  | streamIdZero
  | streamIdNotIncreasing
deriving DecidableEq, Repr

/-- Sub-reasons of `STREAM_PROTOCOL_ERROR` (R332). -/
inductive StreamProtocolSub where
  | wrongParity
  | invalidTransition
  | windowOverflow
deriving DecidableEq, Repr

/-- A session-fatal cause: its class and sub-reason (R330, R333). -/
inductive FatalCause where
  | malformed (sub : MalformedSub)
  | illegalBits (sub : IllegalBitsSub)
  | flowControlViolation (sub : FlowControlSub)
  | unknownVersion (sub : UnknownVersionSub)
  | sessionProtocolError (sub : SessionProtocolSub)
deriving DecidableEq, Repr

/-- `CloseReason` (R332). -/
inductive CloseReason where
  | normal
  | aborted
  | resetByPeer (status : Word32)
  | resetLocal (code : Word32)
  | streamProtocolError (sub : StreamProtocolSub)
deriving DecidableEq, Repr

/-- `GoawayReason` (R332). -/
inductive GoawayReason where
  | peerGoaway (status : Word32)
  | sessionError (cause : FatalCause)
deriving DecidableEq, Repr

/-- `ErrCode` (R332): why a command is refused (R335). -/
inductive ErrCode where
  | sessionClosed
  | unknownStream
  | invalidTransition
  | goingAway
  | resourceExhaustion
deriving DecidableEq, Repr

/-- `FaultCode` (R332). -/
inductive FaultCode where
  | tierRange
deriving DecidableEq, Repr

/-- A command of the host port (R13). -/
inductive Command where
  /-- R370; the owner of the instance. -/
  | reset (cfg : Cfg)
  /-- R260; transport port. -/
  | onBytes (chunk : Bytes)
  /-- R313; transport port. -/
  | transportBlocked
  /-- R314; transport port. -/
  | transportWritable
  /-- R300; application port. The priority is any natural number (R377). -/
  | openStream (priority : Nat) (hb : Bytes)
  /-- R302; application port. -/
  | sendData (sid : StreamId) (bytes : Bytes) (fin : Bool)
  /-- R304; application port. -/
  | resetStream (sid : StreamId) (code : Word32)
  /-- R312; application port. -/
  | close (status : Word32)
deriving DecidableEq, Repr

/-- The ports of R350. The partition is a convention: SUB004 does not check who issued a command. -/
inductive Port where
  | owner
  | transport
  | application
deriving DecidableEq, Repr

/-- The port a command arrives on (R13, R350). -/
def Command.port : Command → Port
  | .reset _ => .owner
  | .onBytes _ => .transport
  | .transportBlocked => .transport
  | .transportWritable => .transport
  | .openStream _ _ => .application
  | .sendData _ _ _ => .application
  | .resetStream _ _ => .application
  | .close _ => .application

/-- The result of a command (R13). -/
inductive Result where
  | ok
  | okId (sid : StreamId)
  | pending
  | err (code : ErrCode)
  | fault (code : FaultCode)
deriving DecidableEq, Repr

/-- An event to the application host (R13, R337). -/
inductive Event where
  | onHeaders (sid : StreamId) (hb : Bytes)
  | onData (sid : StreamId) (bytes : Bytes) (fin : Bool)
  | onStreamClosed (sid : StreamId) (reason : CloseReason)
  | onGoaway (lastGood : StreamId) (reason : GoawayReason)
deriving DecidableEq, Repr

/-- An item to the transport host (R13, R338). -/
inductive TxItem where
  | txBytes (buf : Bytes)
  | txClose
deriving DecidableEq, Repr

/-- What one command returns: the triple `(Result, List Event, List TxItem)` (R13). -/
structure Return where
  result : Result
  events : List Event
  tx : List TxItem
deriving DecidableEq, Repr

/-! ### The numbers of R330 and R332 -/

/-- The class code of a session-fatal cause (R330). Classes 3, 4 and 6 are not session-fatal. -/
def FatalCause.classCode : FatalCause → Nat
  | .malformed _ => 1
  | .illegalBits _ => 2
  | .flowControlViolation _ => 5
  | .unknownVersion _ => 7
  | .sessionProtocolError _ => 8

/-- The sub-reason code of a session-fatal cause (R332). -/
def FatalCause.subCode : FatalCause → Nat
  | .malformed .tooShort => 1
  | .malformed .lengthExceedsBuffer => 2
  | .malformed .truncated => 3
  | .malformed .badPayloadLength => 4
  | .malformed .frameTooLarge => 5
  | .illegalBits .flags => 1
  | .illegalBits .streamIdHighBit => 2
  | .illegalBits .reserved => 3
  | .flowControlViolation .recvWindowExceeded => 1
  | .flowControlViolation .windowOverflow => 2
  | .flowControlViolation .initialWindowRange => 3
  | .unknownVersion .unrecognised => 1
  | .unknownVersion .versionMismatch => 2
  | .sessionProtocolError .streamIdZero => 1
  | .sessionProtocolError .streamIdNotIncreasing => 2

/-- The sub-reason code of `STREAM_PROTOCOL_ERROR` (R332). -/
def StreamProtocolSub.code : StreamProtocolSub → Nat
  | .wrongParity => 1
  | .invalidTransition => 2
  | .windowOverflow => 3

/-- The `CloseReason` number (R332). -/
def CloseReason.code : CloseReason → Nat
  | .normal => 0
  | .aborted => 1
  | .resetByPeer _ => 2
  | .resetLocal _ => 3
  | .streamProtocolError _ => 4

/-- The `GoawayReason` number (R332). -/
def GoawayReason.code : GoawayReason → Nat
  | .peerGoaway _ => 0
  | .sessionError _ => 1

/-- The `ErrCode` number (R332). -/
def ErrCode.code : ErrCode → Nat
  | .sessionClosed => 1
  | .unknownStream => 2
  | .invalidTransition => 3
  | .goingAway => 4
  | .resourceExhaustion => 5

/-- The `FaultCode` number (R332). -/
def FaultCode.code : FaultCode → Nat
  | .tierRange => 1

end Sys2Proof.Machine
end

