-- ==== Sys2Proof/Machine/State.lean ====
section
/-! DEFINITION. The state of one SUB004 instance (spec/10_state.md R20 to R43) and the fields this
model adds to run commands one step at a time; the reasons a step can stop; the state after reset. -/

namespace Sys2Proof.Machine

/-- `S.mode` (R21). -/
inductive Mode where
  | active
  | goingAway
  | closed
  | fault
deriving DecidableEq, Repr

/-- `S.goaway` (R25). -/
inductive GoawayStatus where
  | none
  | sent
  | received (lastGood : StreamId)
deriving DecidableEq, Repr

/-- The stream states (R36, R37). `opened` is the spec's `OPEN`. -/
inductive StreamState where
  | idle
  | opened
  | halfClosedLocal
  | halfClosedRemote
  | closed
deriving DecidableEq, Repr

/-- A stream record (R36). Its identity is its key in the table. -/
structure Stream where
  state : StreamState
  tier : Fin 8
  sendWindow : Int
  recvWindow : Int
  localFinQueued : Bool
deriving DecidableEq, Repr

/-- `S.T` (R35): a finite map from stream ID to record, as a list of pairs in one canonical form, keys
strictly rising (`tableWf`, log entry 12). -/
abbrev StreamTable := List (StreamId × Stream)

/-- A queued frame with the stream it belongs to (R40). -/
abbrev QueueEntry := StreamId × Instr

/-- `S.tierq[0..7]` (R40): always eight FIFO lists. -/
abbrev TierQueues := Vector (List QueueEntry) 8

/-- An entry of `S.pending` (R41). -/
structure PendingWrite where
  sid : StreamId
  bytes : Bytes
  fin : Bool
deriving DecidableEq, Repr

/-- The MODEL's own: whether a command is in progress. `receiving` is an `OnBytes` inside `RX_LOOP`
(R261), the only command this model spreads over several steps, one per frame (log entry 5). -/
inductive Phase where
  | idle
  | receiving
deriving DecidableEq, Repr

/-- The whole state. The fields down to `pending` are the spec's `S` (R20), in the order of R21 to
R41; the last seven are the MODEL's own (log entries 3, 4, 5, 10, 14). -/
structure State where
  /-- R21 -/
  mode : Mode
  /-- R22: a natural number that may reach `0x80000001`. -/
  nextStreamId : Nat
  /-- R23 -/
  lastPeerId : StreamId
  /-- R24 -/
  lastGoodPeerId : StreamId
  /-- R25 -/
  goaway : GoawayStatus
  /-- R26, R27 -/
  sessionSendWindow : Int
  /-- R26, R27 -/
  sessionRecvWindow : Int
  /-- R28 -/
  txReady : Bool
  /-- R29: the bytes received and not yet consumed as whole frames. -/
  rxBuf : Bytes
  /-- R29: the number of bytes of the received stream consumed so far. -/
  rxOffset : Nat
  /-- R31 -/
  cfg : Cfg
  /-- R32 -/
  peerInitialWindow : Credit
  /-- R33: `none` is no limit. -/
  peerMaxStreams : Option Word32
  /-- R35 -/
  streams : StreamTable
  /-- R39 -/
  urgent : List Instr
  /-- R40 -/
  tierq : TierQueues
  /-- R41 -/
  pending : List PendingWrite
  /-- The command in progress, if any. -/
  phase : Phase
  /-- Commands the hosts have issued and SUB004 has not yet taken, oldest first. -/
  inbox : List Command
  /-- The events the command in progress has emitted so far (R11 `emit`). -/
  events : List Event
  /-- The TX items the command in progress has produced so far (R11 `tx`). -/
  tx : List TxItem
  /-- What the commands since the last `Reset`, that one included, returned, oldest first: the
  observable trace of the run it began (R375). -/
  trace : List Return
  /-- What the commands before the last `Reset` returned: the traces of the runs it ended. -/
  earlier : List Return
  /-- How many Boolean draws of R346 have been taken: the index of the next free value. -/
  draws : Nat
deriving DecidableEq, Repr

/-- Why a step stops with a fault. NONE of them is reachable from reset (R152, R178): each names a
case for which the spec says that it cannot occur and that no rule covers it. -/
inductive Fault where
  /-- Raised by the pump and the flush when `encode` answers `EncodeFault`; R178: "no rule says what
  the pump would do with one". Safe: the model stops. -/
  | encodeFault (why : EncodeFault)
  /-- Raised by the pump and the flush when `encode` answers `EncodeRefused` (R178). Safe. -/
  | encodeRefused (why : EncodeRefusal)
  /-- Raised by the receive loop if `decode` read past the end of its buffer, which R140 excludes.
  Safe. -/
  | readOutOfBounds
deriving DecidableEq, Repr

/-- Why a step is refused. -/
inductive Refusal where
  /-- An instruction that has no meaning yet. Raised by `exec` alone; safe. No arm raises it now. -/
  | notModelled (mnemonic : String)
deriving DecidableEq, Repr

/-- The outcome of a step of this machine. -/
abbrev Outcome := Host.Outcome State Fault Refusal

/-- Eight empty tier queues. -/
def emptyQueues : TierQueues := Vector.replicate 8 []

/-- The first local stream ID (R22, R371): 1 for the client, 2 for the server. -/
def firstStreamId : Role → Nat
  | .client => 1
  | .server => 2

/-- The state of R43 for a configuration, with nothing issued and nothing returned. -/
def State.ofCfg (c : Cfg) : State where
  mode := .active
  nextStreamId := firstStreamId c.role
  lastPeerId := 0
  lastGoodPeerId := 0
  goaway := .none
  sessionSendWindow := c.sessionInitialWindow.val
  sessionRecvWindow := c.sessionInitialWindow.val
  txReady := true
  rxBuf := []
  rxOffset := 0
  cfg := c
  peerInitialWindow := c.params.defaultInitialWindow
  peerMaxStreams := none
  streams := []
  urgent := []
  tierq := emptyQueues
  pending := []
  phase := .idle
  inbox := []
  events := []
  tx := []
  trace := []
  earlier := []
  draws := 0

/-- The machine right after reset (R43, R370), with the configuration `cfg0` (log entry 1). -/
def State.reset : State := State.ofCfg Cfg.default

end Sys2Proof.Machine
end

