-- ==== Sys2Proof/Machine/Ops.lean ====
section
/-! DEFINITION. The named operations the frame and command meanings are written over: outputs, the
stream table (spec/42_stream_table.md), the scheduler (spec/43_scheduler.md), the flow-control windows
(spec/44_flow_control.md), and the error procedures (spec/60_exceptions.md section 4), which are this
hardware's exception entry. There is no return from an exception (R349): the only way on from a
session-fatal error is `Reset` (R347). -/

namespace Sys2Proof.Machine

/-! ### Outcomes and outputs -/

/-- Go on with `k` after a step that answered a next state. -/
def andThen (o : Outcome) (k : State → Outcome) : Outcome :=
  match o with
  | .next s => k s
  | .fault r => .fault r
  | .refused r => .refused r

/-- `emit ev` (R11). -/
def emit (ev : Event) (s : State) : State :=
  { s with events := s.events ++ [ev] }

/-- `emit` of several events, in order. -/
def emitAll (evs : List Event) (s : State) : State :=
  { s with events := s.events ++ evs }

/-- `tx item` (R11). -/
def txItem (item : TxItem) (s : State) : State :=
  { s with tx := s.tx ++ [item] }

/-- `tx TxBytes(encode(f))` (R315, R346). `encode` always answers bytes here (R178); a result that is
not bytes, which no rule covers, stops the model by name. -/
def txFrame (f : Instr) (s : State) : Outcome :=
  match encode s.cfg.params s.cfg.build f with
  | .bytes buf => .next (txItem (.txBytes buf) s)
  | .fault why => .fault (.encodeFault why)
  | .refused why => .fault (.encodeRefused why)

/-! ### The stream table (R35, R190 to R197) -/

/-- `T[sid]`, if `sid in T`. -/
def tableGet : StreamTable → StreamId → Option Stream
  | [], _ => none
  | (k, r) :: rest, sid => if k = sid then some r else tableGet rest sid

/-- `T[sid] <- r`, keeping the keys in rising order. -/
def tablePut : StreamTable → StreamId → Stream → StreamTable
  | [], sid, r => [(sid, r)]
  | (k, q) :: rest, sid, r =>
    if k = sid then (sid, r) :: rest
    else if sid.toNat < k.toNat then (sid, r) :: (k, q) :: rest
    else (k, q) :: tablePut rest sid r

/-- `T` without `sid` (R197). -/
def tableErase (T : StreamTable) (sid : StreamId) : StreamTable :=
  T.filter (fun e => decide (e.1 ≠ sid))

/-- Replace every record by its image, the keys unchanged. -/
def tableMap (g : Stream → Stream) (T : StreamTable) : StreamTable :=
  T.map (fun e => (e.1, g e.2))

/-- The canonical form of the keyed store: keys strictly rising. Two tables in this form are the same
finite map exactly when they are the same list. -/
def tableWf (T : StreamTable) : Bool :=
  decide ((T.map (fun e => e.1.toNat)).Pairwise (· < ·))

/-- `keys(T)`, in ascending order when the table is in canonical form. -/
def tableKeys (T : StreamTable) : List StreamId := T.map (·.1)

/-- `count_local` (R191). -/
def countLocal (s : State) : Nat :=
  (s.streams.filter (fun e => isLocal s.cfg.role e.1)).length

/-- `count_peer` (R191). -/
def countPeer (s : State) : Nat :=
  (s.streams.filter (fun e => !isLocal s.cfg.role e.1)).length

/-- The internal errors of the stream table (R190). -/
inductive TableError where
  | duplicateId
  | badParity
  | unknownStream
  | invalidTransition
deriving DecidableEq, Repr

/-- Who initiates a stream: the `origin` argument of `open` (R192). -/
inductive Origin where
  | ours
  | peers
deriving DecidableEq, Repr

/-- `lookup(id)` (R193). -/
def lookup (sid : StreamId) (s : State) : Except TableError Stream :=
  match tableGet s.streams sid with
  | some r => .ok r
  | none => .error .unknownStream

/-- Write the record of `sid`. -/
def putStream (sid : StreamId) (r : Stream) (s : State) : State :=
  { s with streams := tablePut s.streams sid r }

/-- `close(id)` of R197: remove the record, if any. -/
def closeStream (sid : StreamId) (s : State) : State :=
  { s with streams := tableErase s.streams sid }

/-- The record `open` creates (R192). -/
def freshStream (tier : Fin 8) (s : State) : Stream where
  state := .idle
  tier := tier
  sendWindow := s.peerInitialWindow.val
  recvWindow := s.cfg.localInitialWindow.val
  localFinQueued := false

/-- `open(id, tier, origin)` (R192). -/
def openStream (sid : StreamId) (tier : Fin 8) (origin : Origin) (s : State) :
    Except TableError State :=
  if sid = 0 ∨ (decide (origin = .ours) ≠ isLocal s.cfg.role sid) then .error .badParity
  else if (tableGet s.streams sid).isSome then .error .duplicateId
  else .ok (putStream sid (freshStream tier s) s)

/-- The events of the stream state machine (R194). -/
inductive StreamEvent where
  | sendSyn
  | recvSyn
  | sendFrame
  | recvFrame
  | sendFin
  | recvFin
  | sendRst
  | recvRst
deriving DecidableEq, Repr

/-- `NEXT` (R196); `none` is a blank cell. -/
def nextState : StreamState → StreamEvent → Option StreamState
  | .idle, .sendSyn => some .opened
  | .idle, .recvSyn => some .opened
  | .idle, .sendRst => some .closed
  | .idle, .recvRst => some .closed
  | .opened, .sendFrame => some .opened
  | .opened, .recvFrame => some .opened
  | .opened, .sendFin => some .halfClosedLocal
  | .opened, .recvFin => some .halfClosedRemote
  | .opened, .sendRst => some .closed
  | .opened, .recvRst => some .closed
  | .halfClosedLocal, .recvFrame => some .halfClosedLocal
  | .halfClosedLocal, .recvFin => some .closed
  | .halfClosedLocal, .sendRst => some .closed
  | .halfClosedLocal, .recvRst => some .closed
  | .halfClosedRemote, .sendFrame => some .halfClosedRemote
  | .halfClosedRemote, .sendFin => some .closed
  | .halfClosedRemote, .sendRst => some .closed
  | .halfClosedRemote, .recvRst => some .closed
  | _, _ => none

/-- `transition(id, event)` (R195): the record is unchanged on an error. -/
def transition (sid : StreamId) (e : StreamEvent) (s : State) : Except TableError State :=
  match tableGet s.streams sid with
  | none => .error .unknownStream
  | some r =>
    match nextState r.state e with
    | none => .error .invalidTransition
    | some st => .ok (putStream sid { r with state := st } s)

/-- The state after an operation the rules say cannot fail where they call it; on an error the state
before it (log entry 9). -/
def orElseSame (s : State) (o : Except TableError State) : State :=
  match o with
  | .ok t => t
  | .error _ => s

/-- `REMOVE_IF_CLOSED(sid)` (R197). -/
def removeIfClosed (sid : StreamId) (s : State) : State :=
  match tableGet s.streams sid with
  | some r =>
    if r.state = .closed then emit (.onStreamClosed sid .normal) (closeStream sid s) else s
  | none => s

/-! ### The scheduler (R220 to R227) -/

/-- Write `tierq[t]`. -/
def setQueue (t : Fin 8) (q : List QueueEntry) (s : State) : State :=
  { s with tierq := s.tierq.set t q }

/-- Replace every tier queue by its image. -/
def mapQueues (g : List QueueEntry → List QueueEntry) (qs : TierQueues) : TierQueues :=
  ⟨⟨qs.toList.map g⟩, by simp⟩

/-- `enqueue(sid, frame)` (R221): the tier is read from the stream's record. Its precondition is
`sid in T`; without a record nothing is queued (log entry 9). -/
def enqueue (sid : StreamId) (f : Instr) (s : State) : State :=
  match tableGet s.streams sid with
  | some r => setQueue r.tier (s.tierq[r.tier] ++ [(sid, f)]) s
  | none => s

/-- `enqueue_urgent(frame)` (R223). -/
def enqueueUrgent (f : Instr) (s : State) : State :=
  { s with urgent := s.urgent ++ [f] }

/-- The eight tiers, highest precedence first (R222). -/
def tiersInOrder : List (Fin 8) := [0, 1, 2, 3, 4, 5, 6, 7]

/-- The first of the given tiers whose queue is not empty. -/
def firstNonEmpty (qs : TierQueues) : List (Fin 8) → Option (Fin 8)
  | [] => none
  | t :: rest => if qs[t] = [] then firstNonEmpty qs rest else some t

/-- `next()` (R222): the frame that leaves and the state without it; `none` is `Empty`. -/
def next (s : State) : Option (Instr × State) :=
  match s.urgent with
  | f :: rest => some (f, { s with urgent := rest })
  | [] =>
    match firstNonEmpty s.tierq tiersInOrder with
    | none => none
    | some t =>
      match s.tierq[t] with
      | [] => none
      | (_, f) :: rest => some (f, setQueue t rest s)

/-- The number of frames waiting in the scheduler. -/
def queuedFrames (s : State) : Nat :=
  s.urgent.length + (s.tierq.toList.map List.length).sum

/-- The payload bytes of a DATA frame; other frames cost no credit (R235). -/
def dataSize : Instr → Nat
  | .data _ _ payload => payload.length
  | .synStream _ _ _ _ _ _ => 0
  | .synReply _ _ _ _ => 0
  | .rstStream _ _ _ _ => 0
  | .settings _ _ _ => 0
  | .ping _ _ _ => 0
  | .goaway _ _ _ _ => 0
  | .headers _ _ _ _ _ => 0
  | .windowUpdate _ _ _ _ => 0

/-- A frame is a DATA frame. -/
def isData : Instr → Bool
  | .data _ _ _ => true
  | .synStream _ _ _ _ _ _ => false
  | .synReply _ _ _ _ => false
  | .rstStream _ _ _ _ => false
  | .settings _ _ _ => false
  | .ping _ _ _ => false
  | .goaway _ _ _ _ => false
  | .headers _ _ _ _ _ => false
  | .windowUpdate _ _ _ _ => false

/-- The DATA payload bytes queued for one stream: the refund of R226. -/
def queuedDataBytes (sid : StreamId) (qs : TierQueues) : Nat :=
  ((qs.toList.flatten.filter (fun e => decide (e.1 = sid))).map (fun e => dataSize e.2)).sum

/-- `purge(sid)` (R226). -/
def purge (sid : StreamId) (s : State) : State :=
  { s with
    tierq := mapQueues (fun q => q.filter (fun e => decide (e.1 ≠ sid))) s.tierq
    pending := s.pending.filter (fun e => decide (e.sid ≠ sid))
    sessionSendWindow := min maxWindow (s.sessionSendWindow + queuedDataBytes sid s.tierq) }

/-- The queues, the pending writes, the table and the receive buffer emptied without being sent:
line 4 of R312 and R345 (R227). -/
def discardAll (s : State) : State :=
  { s with streams := [], urgent := [], tierq := emptyQueues, pending := [], rxBuf := [] }

/-! ### Flow-control windows (R235 to R242) -/

/-- `avail(sid)` (R236), where `sid in T`. -/
def avail (sid : StreamId) (s : State) : Option Int :=
  (tableGet s.streams sid).map fun r => min r.sendWindow s.sessionSendWindow

/-- `reserve(sid, n)` (R236): `true` is `Granted`. It changes nothing. -/
def reserve (sid : StreamId) (n : Nat) (s : State) : Bool :=
  match tableGet s.streams sid with
  | some r =>
    decide ((n : Int) ≤ r.sendWindow ∧ (n : Int) ≤ s.sessionSendWindow ∧ 0 ≤ r.sendWindow)
  | none => false

/-- `consume(sid, n)` (R237). -/
def consume (sid : StreamId) (n : Nat) (s : State) : State :=
  match tableGet s.streams sid with
  | some r =>
    { putStream sid { r with sendWindow := r.sendWindow - n } s with
      sessionSendWindow := s.sessionSendWindow - n }
  | none => s

/-- `replenish(sid, n)` (R238); `none` is `Overflow`, which changes nothing. -/
def replenish (sid : StreamId) (n : Nat) (s : State) : Option State :=
  if sid = 0 then
    if maxWindow < s.sessionSendWindow + n then none
    else some { s with sessionSendWindow := s.sessionSendWindow + n }
  else
    match tableGet s.streams sid with
    | none => some s
    | some r =>
      if maxWindow < r.sendWindow + n then none
      else some (putStream sid { r with sendWindow := r.sendWindow + n } s)

/-- The SETTINGS adjustment of the initial window (R240); the error is the session-fatal cause, and
nothing is changed then. -/
def adjustInitialWindow (v : Word32) (s : State) : Except FatalCause State :=
  if h : v.toNat < 2 ^ 31 then
    let d : Int := (v.toNat : Int) - s.peerInitialWindow.val
    if s.streams.any (fun e => decide (maxWindow < e.2.sendWindow + d)) then
      .error (.flowControlViolation .windowOverflow)
    else
      .ok { s with
        streams := tableMap (fun r => { r with sendWindow := r.sendWindow + d }) s.streams
        peerInitialWindow := ⟨v.toNat, h⟩ }
  else .error (.flowControlViolation .initialWindowRange)

/-- The receive windows of `sid` and the session after `n` payload bytes (R242, first half). -/
def debitRecv (sid : StreamId) (r : Stream) (n : Nat) (s : State) : State :=
  { putStream sid { r with recvWindow := r.recvWindow - n } s with
    sessionRecvWindow := s.sessionRecvWindow - n }

/-- The credit handed back after delivery (R242, second half; R266): always to the session, and to the
stream when the peer may still send on it. -/
def returnCredit (sid : StreamId) (n : Nat) (s : State) : State :=
  if n = 0 then s
  else
    let ver := wireVersion s.cfg
    let s := { s with sessionRecvWindow := s.sessionRecvWindow + n }
    let s := enqueueUrgent (.windowUpdate ver 0 0 (BitVec.ofNat 31 n)) s
    match tableGet s.streams sid with
    | some r =>
      if r.state = .opened ∨ r.state = .halfClosedLocal then
        enqueue sid (.windowUpdate ver 0 sid (BitVec.ofNat 31 n))
          (putStream sid { r with recvWindow := r.recvWindow + n } s)
      else s
    | none => s

/-! ### Errors: this hardware's exceptions (R343 to R346) -/

/-- `BARE_RST(sid, status)` (R344). -/
def bareRst (sid : StreamId) (status : Word32) (s : State) : State :=
  enqueueUrgent (.rstStream (wireVersion s.cfg) 0 sid status) s

/-- `STREAM_ERROR(sid, status, reason)` (R343): the stream-local procedure. -/
def streamError (sid : StreamId) (status : Word32) (reason : CloseReason) (s : State) : State :=
  let s := enqueueUrgent (.rstStream (wireVersion s.cfg) 0 sid status) s
  let s := orElseSame s (transition sid .sendRst s)
  let s := purge sid s
  let s := closeStream sid s
  emit (.onStreamClosed sid reason) s

/-- The last two lines of R346. -/
def markClosed (s : State) : State :=
  { txItem .txClose s with mode := .closed, goaway := .sent }

/-- `FLUSH_AND_CLOSE(g)` (R346): the GOAWAY is handed over when the transport is ready; when it is
blocked a free Boolean decides (log entry 3). -/
def flushAndClose (g : Instr) (s : State) : Outcome :=
  if s.txReady then andThen (txFrame g s) fun s => .next (markClosed s)
  else
    let draw := Config.flushDraw s.draws
    let s := { s with draws := s.draws + 1 }
    if draw then andThen (txFrame g s) fun s => .next (markClosed s)
    else .next (markClosed s)

/-- `on_stream_closed(sid, ABORTED)` for every stream, in ascending ID (R312, R345 line 1). -/
def abortEvents (T : StreamTable) : List Event :=
  (tableKeys T).map fun sid => .onStreamClosed sid .aborted

/-- `FATAL(class, sub)` (R345): the session-fatal procedure, this hardware's exception entry. -/
def fatal (cause : FatalCause) (s : State) : Outcome :=
  let s := emitAll (abortEvents s.streams) s
  let s := emit (.onGoaway s.lastGoodPeerId (.sessionError cause)) s
  let g := Instr.goaway (wireVersion s.cfg) 0 s.lastGoodPeerId s.cfg.params.goawayProtocolError
  flushAndClose g (discardAll s)

/-! ### Status outputs and streams of bytes (R30, R60) -/

/-- `rx_ready` (R30). -/
def rxReady (s : State) : Bool :=
  decide (s.mode = .active ∨ s.mode = .goingAway)

/-- `active_streams` (R30). -/
def activeStreams (s : State) : Nat := s.streams.length

/-- The bytes of one TX item. -/
def TxItem.buf : TxItem → Bytes
  | .txBytes buf => buf
  | .txClose => []

/-- The transmit stream: the buffers of all `TxBytes` items since the last `Reset`, in emission order,
those of the command in progress last (R60, R375). -/
def transmitStream (s : State) : Bytes :=
  (s.trace.flatMap (·.tx) ++ s.tx).flatMap TxItem.buf

end Sys2Proof.Machine
end

