-- ==== Sys2Proof/Machine/Transmit.lean ====
section
/-! DEFINITION. The transmit path: `DRAIN`, `PUMP` and `EPILOGUE` (spec/46_session_tx.md R305, R315,
R316). -/

namespace Sys2Proof.Machine

/-- The size of the next piece of a write of which `rem` is left, with credit `a` (R305). -/
def pieceSize (c : Cfg) (rem : Bytes) (a : Int) : Nat :=
  min rem.length (min a.toNat c.maxDataPayload.val)

/-- The inner loop of `DRAIN` (R305) for one write. The answer `none` means that the last piece was
queued; `some rem` that the write is stuck with `rem` left. Every turn but the last takes at least one
byte off `rem`, so `rem.length + 1` turns suffice. A stream that is not in the table, which R41
excludes, blocks its write (log entry 9). -/
def drainWrite : Nat → StreamId → Bytes → Bool → State → State × Option Bytes
  | 0, _, rem, _, s => (s, some rem)
  | turns + 1, sid, rem, fin, s =>
    match avail sid s with
    | none => (s, some rem)
    | some a =>
      let n := pieceSize s.cfg rem a
      if (rem = [] ∧ 0 ≤ a) ∨ 0 < n then
        let last := decide (n = rem.length)
        let flags := if last && fin then s.cfg.params.flagFin else 0
        let s := consume sid n s
        let s := orElseSame s (transition sid .sendFrame s)
        let s := enqueue sid (.data sid flags (rem.take n)) s
        if last then
          if fin then (removeIfClosed sid (orElseSame s (transition sid .sendFin s)), none)
          else (s, none)
        else drainWrite turns sid (rem.drop n) fin s
      else (s, some rem)

/-- The walk of `DRAIN` over the pending writes, in order (R305). `stuck` holds the streams that have
hit a blocked write in this pass; the answer's second part is the list `new`. -/
def drainFrom : List PendingWrite → List StreamId → State → State × List PendingWrite
  | [], _, s => (s, [])
  | w :: rest, stuck, s =>
    if w.sid ∈ stuck then
      let (s, new) := drainFrom rest stuck s
      (s, w :: new)
    else
      match drainWrite (w.bytes.length + 1) w.sid w.bytes w.fin s with
      | (s, some rem) =>
        let (s, new) := drainFrom rest (w.sid :: stuck) s
        (s, { w with bytes := rem } :: new)
      | (s, none) => drainFrom rest stuck s

/-- `DRAIN` (R305): the flow-control gate. -/
def drain (s : State) : State :=
  let (s', new) := drainFrom s.pending [] s
  { s' with pending := new }

/-- `PUMP` (R315), at most `turns` frames. -/
def pumpTurns : Nat → State → Outcome
  | 0, s => .next s
  | turns + 1, s =>
    if s.txReady then
      match next s with
      | none => .next s
      | some (f, s) => andThen (txFrame f s) (pumpTurns turns)
    else .next s

/-- `PUMP` (R315): while the transport is ready, every queued frame leaves, in `next()` order. Each
turn takes one frame out, so as many turns as there are frames suffice. -/
def pump (s : State) : Outcome := pumpTurns (queuedFrames s) s

/-- Nothing is left to do: the test of the last clause of R316. -/
def nothingLeft (s : State) : Bool :=
  s.streams.isEmpty && s.urgent.isEmpty && s.tierq.toList.all List.isEmpty && s.pending.isEmpty

/-- The graceful tear-down of R316. -/
def tearDownIfDone (s : State) : State :=
  if s.mode = .goingAway ∧ nothingLeft s then { txItem .txClose s with mode := .closed } else s

/-- The session is over: `S.mode in {CLOSED, FAULT}`. -/
def ended (s : State) : Bool :=
  decide (s.mode = .closed ∨ s.mode = .fault)

/-- `EPILOGUE` (R316). -/
def epilogue (s : State) : Outcome :=
  if ended s then .next s
  else andThen (pump (drain s)) fun s => .next (tearDownIfDone s)

end Sys2Proof.Machine
end

