-- ==== Sys2Proof/Machine/Commands.lean ====
section
/-! DEFINITION. The commands of the host port: `OpenStream`, `SendData`, `ResetStream`, `Close`,
`TransportBlocked`, `TransportWritable` (spec/46_session_tx.md R300 to R314), the start of `OnBytes`
(spec/45_session_rx.md R260) and `Reset` (spec/10_state.md R43). -/

namespace Sys2Proof.Machine

/-- The command in progress returns: its result with the events and TX items it has produced (R13). -/
def ret (result : Result) (s : State) : State :=
  { s with
    phase := .idle
    events := []
    tx := []
    trace := s.trace ++ [⟨result, s.events, s.tx⟩] }

/-- `EPILOGUE; return result`. -/
def epilogueThen (result : Result) (s : State) : Outcome :=
  andThen (epilogue s) fun s => .next (ret result s)

/-- The common first line of every command but `Reset` (R335). -/
def unlessEnded (s : State) (k : Outcome) : Outcome :=
  if ended s then .next (ret (.err .sessionClosed) s) else k

/-- `Reset(cfg)` (R43, R370): every field of `S` as R43 says, nothing emitted. It begins a new run
(R375): the trace so far becomes an earlier one. The commands the hosts have issued and the count of
draws go on (log entry 14). -/
def cmdReset (c : Cfg) (s : State) : Outcome :=
  .next (ret .ok { State.ofCfg c with
    inbox := s.inbox
    earlier := s.earlier ++ s.trace
    draws := s.draws })

/-- `OnBytes(chunk)` up to `RX_LOOP` (R260). -/
def cmdOnBytes (chunk : Bytes) (s : State) : Outcome :=
  unlessEnded s (.next { s with rxBuf := s.rxBuf ++ chunk, phase := .receiving })

/-- `OpenStream` lines 7 to 11 (R300). -/
def openLocal (tier : Fin 8) (hb : Bytes) (s : State) : Outcome :=
  let sid : StreamId := BitVec.ofNat 31 s.nextStreamId
  let s := { s with nextStreamId := s.nextStreamId + 2 }
  let s := orElseSame s (openStream sid tier .ours s)
  let s := orElseSame s (transition sid .sendSyn s)
  let s := enqueue sid (.synStream (wireVersion s.cfg) 0 sid 0 tier hb) s
  epilogueThen (.okId sid) s

/-- Line 2 of R300: the peer has said that it will not process the next stream ID. -/
def goneAway (s : State) : Bool :=
  match s.goaway with
  | .received g => decide (g.toNat < s.nextStreamId)
  | .none => false
  | .sent => false

/-- Line 5 of R300: the peer's limit on local streams is reached. -/
def atPeerLimit (s : State) : Bool :=
  match s.peerMaxStreams with
  | some m => decide (m.toNat ≤ countLocal s)
  | none => false

/-- `OpenStream(priority, hb)` (R300, R301). -/
def cmdOpenStream (priority : Nat) (hb : Bytes) (s : State) : Outcome :=
  unlessEnded s <|
    if goneAway s then .next (ret (.err .goingAway) s)
    else
      match tierPolicy s.cfg priority with
      | none => .next (ret (.fault .tierRange) { s with mode := .fault })
      | some tier =>
        if maxStreamId < s.nextStreamId then .next (ret (.err .resourceExhaustion) s)
        else if atPeerLimit s then .next (ret (.err .resourceExhaustion) s)
        else if maxPayload < 10 + hb.length then .next (ret (.err .resourceExhaustion) s)
        else openLocal tier hb s

/-- Line 7 of R302: some of the stream's data is still waiting, for credit or for the transport. -/
def dataWaiting (sid : StreamId) (s : State) : Bool :=
  s.pending.any (fun w => decide (w.sid = sid))
    || s.tierq.toList.flatten.any (fun e => decide (e.1 = sid) && isData e.2)

/-- Lines 4 to 7 of R302. -/
def acceptWrite (sid : StreamId) (r : Stream) (bytes : Bytes) (fin : Bool) (s : State) : Outcome :=
  let s := { s with pending := s.pending ++ [⟨sid, bytes, fin⟩] }
  let s := if fin then putStream sid { r with localFinQueued := true } s else s
  andThen (epilogue s) fun s =>
    .next (ret (if dataWaiting sid s then .pending else .ok) s)

/-- `SendData(sid, bytes, fin)` (R302). -/
def cmdSendData (sid : StreamId) (bytes : Bytes) (fin : Bool) (s : State) : Outcome :=
  unlessEnded s <|
    match tableGet s.streams sid with
    | none => .next (ret (.err .unknownStream) s)
    | some r =>
      if (r.state ≠ .opened ∧ r.state ≠ .halfClosedRemote) ∨ r.localFinQueued = true then
        epilogueThen (.err .invalidTransition)
          (streamError sid s.cfg.params.rstProtocolError
            (.streamProtocolError .invalidTransition) s)
      else acceptWrite sid r bytes fin s

/-- `ResetStream(sid, code)` (R304). -/
def cmdResetStream (sid : StreamId) (code : Word32) (s : State) : Outcome :=
  unlessEnded s <|
    match tableGet s.streams sid with
    | none => .next (ret (.err .unknownStream) s)
    | some _ => epilogueThen .ok (streamError sid code (.resetLocal code) s)

/-- `Close(status)` (R312). -/
def cmdClose (status : Word32) (s : State) : Outcome :=
  unlessEnded s <|
    let s := emitAll (abortEvents s.streams) s
    let g := Instr.goaway (wireVersion s.cfg) 0 s.lastGoodPeerId status
    andThen (flushAndClose g (discardAll s)) fun s => .next (ret .ok s)

/-- `TransportBlocked` (R313). -/
def cmdTransportBlocked (s : State) : Outcome :=
  unlessEnded s (epilogueThen .ok { s with txReady := false })

/-- `TransportWritable` (R314). -/
def cmdTransportWritable (s : State) : Outcome :=
  unlessEnded s (epilogueThen .ok { s with txReady := true })

/-- Take one command (R13). -/
def runCommand (c : Command) (s : State) : Outcome :=
  match c with
  | .reset cfg => cmdReset cfg s
  | .onBytes chunk => cmdOnBytes chunk s
  | .transportBlocked => cmdTransportBlocked s
  | .transportWritable => cmdTransportWritable s
  | .openStream priority hb => cmdOpenStream priority hb s
  | .sendData sid bytes fin => cmdSendData sid bytes fin s
  | .resetStream sid code => cmdResetStream sid code s
  | .close status => cmdClose status s

end Sys2Proof.Machine
end

