-- ==== Sys2Proof/Machine/StreamFrames.lean ====
section
/-! DEFINITION. The meanings of the frames that open, feed or end a stream: SYN_STREAM, SYN_REPLY,
HEADERS, DATA, RST_STREAM (spec/45_session_rx.md R262 to R266, R271). -/

namespace Sys2Proof.Machine

/-- The version test of `DISPATCH` (R262): a control frame of another version is session-fatal. -/
def versionChecked (ver : VersionTag) (s : State) (k : Outcome) : Outcome :=
  if ver ≠ wireVersion s.cfg then fatal (.unknownVersion .versionMismatch) s else k

/-- The stream-ID test of `DISPATCH` (R262): ID 0 names no stream. -/
def streamNamed (sid : StreamId) (s : State) (k : Outcome) : Outcome :=
  if sid = 0 then fatal (.sessionProtocolError .streamIdZero) s else k

/-- The end of a header frame (R263 to R265): with `FLAG_FIN` an empty last `on_data`, then the
peer's direction is finished. -/
def finishHeaders (sid : StreamId) (flags : Byte) (s : State) : State :=
  if finSet s.cfg.params flags then
    let s := emit (.onData sid [] true) s
    removeIfClosed sid (orElseSame s (transition sid .recvFin s))
  else s

/-- The text R264 and R265 share: a header block on an existing stream. -/
def receiveHeaders (sid : StreamId) (flags : Byte) (hb : Bytes) (s : State) : State :=
  match transition sid .recvFrame s with
  | .error .unknownStream => bareRst sid s.cfg.params.rstInvalidStream s
  | .error _ =>
    streamError sid s.cfg.params.rstProtocolError (.streamProtocolError .invalidTransition) s
  | .ok s => finishHeaders sid flags (emit (.onHeaders sid hb) s)

/-- R263, after the checks of `DISPATCH`. The associated stream is ignored. -/
def receiveSynStream (sid : StreamId) (flags : Byte) (tier : Fin 8) (hb : Bytes) (s : State) :
    Outcome :=
  let p := s.cfg.params
  if isLocal s.cfg.role sid then
    if (tableGet s.streams sid).isSome then
      .next (streamError sid p.rstProtocolError (.streamProtocolError .wrongParity) s)
    else .next (bareRst sid p.rstProtocolError s)
  else if sid.toNat ≤ s.lastPeerId.toNat then
    fatal (.sessionProtocolError .streamIdNotIncreasing) s
  else
    let s := { s with lastPeerId := sid }
    if s.cfg.maxPeerStreams ≤ countPeer s then .next (bareRst sid p.rstRefusedStream s)
    else
      let s := orElseSame s (openStream sid tier .peers s)
      let s := orElseSame s (transition sid .recvSyn s)
      let s := { s with lastGoodPeerId := sid }
      .next (finishHeaders sid flags (emit (.onHeaders sid hb) s))

/-- R266, after the checks of `DISPATCH`. -/
def receiveData (sid : StreamId) (flags : Byte) (payload : Bytes) (s : State) : Outcome :=
  match transition sid .recvFrame s with
  | .error .unknownStream => .next (bareRst sid s.cfg.params.rstInvalidStream s)
  | .error _ =>
    .next (streamError sid s.cfg.params.rstProtocolError
      (.streamProtocolError .invalidTransition) s)
  | .ok s =>
    match tableGet s.streams sid with
    | none => .next s
    | some r =>
      let n := payload.length
      if r.recvWindow < n ∨ s.sessionRecvWindow < n then
        fatal (.flowControlViolation .recvWindowExceeded) s
      else
        let s := debitRecv sid r n s
        let fin := finSet s.cfg.params flags
        let s := emit (.onData sid payload fin) s
        let s := if fin then removeIfClosed sid (orElseSame s (transition sid .recvFin s)) else s
        .next (returnCredit sid n s)

/-- R271, after the checks of `DISPATCH`: no reply is ever sent to an RST_STREAM. -/
def receiveRst (sid : StreamId) (status : Word32) (s : State) : State :=
  match transition sid .recvRst s with
  | .error .unknownStream => s
  | o => emit (.onStreamClosed sid (.resetByPeer status))
      (closeStream sid (purge sid (orElseSame s o)))

/-- DATA received: R262, R266. -/
def execData (sid : StreamId) (flags : Byte) (payload : Bytes) (s : State) : Outcome :=
  streamNamed sid s (receiveData sid flags payload s)

/-- SYN_STREAM received: R262, R263. -/
def execSynStream (ver : VersionTag) (flags : Byte) (sid : StreamId) (tier : Fin 8) (hb : Bytes)
    (s : State) : Outcome :=
  versionChecked ver s (streamNamed sid s (receiveSynStream sid flags tier hb s))

/-- SYN_REPLY received: R262, R264. -/
def execSynReply (ver : VersionTag) (flags : Byte) (sid : StreamId) (hb : Bytes) (s : State) :
    Outcome :=
  versionChecked ver s (streamNamed sid s (.next (receiveHeaders sid flags hb s)))

/-- RST_STREAM received: R262, R271. The flags are carried and ignored (R97). -/
def execRstStream (ver : VersionTag) (sid : StreamId) (status : Word32) (s : State) : Outcome :=
  versionChecked ver s (streamNamed sid s (.next (receiveRst sid status s)))

/-- HEADERS received: R262, R265. The decoded tier is not used: the stream keeps the one it was
opened with. -/
def execHeaders (ver : VersionTag) (flags : Byte) (sid : StreamId) (hb : Bytes) (s : State) :
    Outcome :=
  versionChecked ver s (streamNamed sid s (.next (receiveHeaders sid flags hb s)))

end Sys2Proof.Machine
end

