-- ==== Sys2Proof/Machine/SessionFrames.lean ====
section
/-! DEFINITION. The meanings of the session-level frames: SETTINGS, WINDOW_UPDATE, PING, GOAWAY
(spec/45_session_rx.md R267 to R270). -/

namespace Sys2Proof.Machine

/-- The entries of a SETTINGS frame, in wire order (R267); a session-fatal entry ends the frame. -/
def applySettings : List SettingsEntry → State → Outcome
  | [], s => .next s
  | e :: rest, s =>
    if e.id = s.cfg.params.settingsMaxConcurrentStreams then
      applySettings rest { s with peerMaxStreams := some e.value }
    else if e.id = s.cfg.params.settingsInitialWindowSize then
      match adjustInitialWindow e.value s with
      | .ok s => applySettings rest s
      | .error cause => fatal cause s
    else applySettings rest s

/-- R268, after the checks of `DISPATCH`. -/
def receiveWindowUpdate (sid : StreamId) (delta : BitVec 31) (s : State) : Outcome :=
  match replenish sid delta.toNat s with
  | some s => .next s
  | none =>
    if sid = 0 then fatal (.flowControlViolation .windowOverflow) s
    else .next (streamError sid s.cfg.params.rstFlowControlError
      (.streamProtocolError .windowOverflow) s)

/-- One stream above the peer's last-good ID is aborted without an RST_STREAM (R270). -/
def abortStream (sid : StreamId) (s : State) : State :=
  emit (.onStreamClosed sid .aborted) (closeStream sid (purge sid s))

/-- The loop of R270 over the streams, in ascending ID. -/
def abortAbove (lastGood : StreamId) : List StreamId → State → State
  | [], s => s
  | sid :: rest, s =>
    if isLocal s.cfg.role sid ∧ lastGood.toNat < sid.toNat then
      abortAbove lastGood rest (abortStream sid s)
    else abortAbove lastGood rest s

/-- R270, after the checks of `DISPATCH`. -/
def receiveGoaway (lastGood : StreamId) (status : Word32) (s : State) : State :=
  let s := { s with goaway := .received lastGood, mode := .goingAway }
  let s := emit (.onGoaway lastGood (.peerGoaway status)) s
  abortAbove lastGood (tableKeys s.streams) s

/-- SETTINGS received: R262, R267. The frame's flags and every `eflags` are ignored. -/
def execSettings (ver : VersionTag) (entries : List SettingsEntry) (s : State) : Outcome :=
  versionChecked ver s (applySettings entries s)

/-- PING received: R262, R269: echoed with the same ID. -/
def execPing (ver : VersionTag) (id : Word32) (s : State) : Outcome :=
  versionChecked ver s (.next (enqueueUrgent (.ping (wireVersion s.cfg) 0 id) s))

/-- GOAWAY received: R262, R270. -/
def execGoaway (ver : VersionTag) (lastGood : StreamId) (status : Word32) (s : State) : Outcome :=
  versionChecked ver s (.next (receiveGoaway lastGood status s))

/-- WINDOW_UPDATE received: R262, R268. ID 0 names the session window. -/
def execWindowUpdate (ver : VersionTag) (sid : StreamId) (delta : BitVec 31) (s : State) : Outcome :=
  versionChecked ver s (receiveWindowUpdate sid delta s)

end Sys2Proof.Machine
end

