-- ==== Sys2Proof/Machine/Dispatch.lean ====
section
/-! DEFINITION. `DISPATCH` (spec/45_session_rx.md R262): one arm per frame kind, each a direct call of
that frame's meaning. -/

namespace Sys2Proof.Machine

/-- What a received frame does to the state (R262). -/
def exec (i : Instr) (s : State) : Host.Outcome State Fault Refusal :=
  match i with
  | .data sid flags payload => Sys2Proof.Machine.execData sid flags payload s
  | .synStream ver flags sid _ tier hb => Sys2Proof.Machine.execSynStream ver flags sid tier hb s
  | .synReply ver flags sid hb => Sys2Proof.Machine.execSynReply ver flags sid hb s
  | .rstStream ver _ sid status => Sys2Proof.Machine.execRstStream ver sid status s
  | .settings ver _ entries => Sys2Proof.Machine.execSettings ver entries s
  | .ping ver _ id => Sys2Proof.Machine.execPing ver id s
  | .goaway ver _ lastGood status => Sys2Proof.Machine.execGoaway ver lastGood status s
  | .headers ver flags sid _ hb => Sys2Proof.Machine.execHeaders ver flags sid hb s
  | .windowUpdate ver _ sid delta => Sys2Proof.Machine.execWindowUpdate ver sid delta s

end Sys2Proof.Machine
end

