-- ==== Sys2Proof/Machine/Receive.lean ====
section
/-! DEFINITION. `RX_LOOP` (spec/45_session_rx.md R261), one frame a step, and the end of `OnBytes`
(R260). -/

namespace Sys2Proof.Machine

/-- The loop has stopped: `EPILOGUE; return Ok` (R260). -/
def finishReceive (s : State) : Outcome :=
  epilogueThen .ok s

/-- What the loop does with a decode error (R261); a frame of unknown type is skipped (R272). -/
def decodeFailed (e : DecodeError) (s : State) : Outcome :=
  match e with
  | .unknownFrameType _ => .next s
  | .malformed sub => fatal (.malformed sub) s
  | .illegalBits sub => fatal (.illegalBits sub) s
  | .unknownVersion _ => fatal (.unknownVersion .unrecognised) s
  | .outOfBounds => .fault .readOutOfBounds

/-- Cut `total` bytes off the buffer; the cursor moves past the frame first (R261). -/
def cutFrame (total : Nat) (s : State) : State :=
  { s with rxBuf := s.rxBuf.drop total, rxOffset := s.rxOffset + total }

/-- One turn of `RX_LOOP` (R261). -/
def receiveTurn (s : State) : Outcome :=
  if s.mode = .closed then finishReceive s
  else if s.rxBuf.length < 8 then finishReceive s
  else
    let total := 8 + headerLength s.rxBuf
    if s.cfg.rxBufMax < total then fatal (.malformed .frameTooLarge) s
    else if s.rxBuf.length < total then finishReceive s
    else
      match decode s.cfg.params (s.rxBuf.take total) with
      | .ok frame => exec frame (cutFrame total s)
      | .error e => decodeFailed e (cutFrame total s)

/-- Take the next command the hosts have issued; with none the state is kept (R44, R354). -/
def takeCommand (s : State) : Outcome :=
  match s.inbox with
  | [] => .next s
  | c :: rest => runCommand c { s with inbox := rest }

end Sys2Proof.Machine
end

