-- ==== Sys2Proof/Machine/Step.lean ====
section
/-! DEFINITION. One step of the machine: inside an `OnBytes`, one turn of the receive loop; between
commands, the next command (log entry 5). -/

namespace Sys2Proof.Machine

/-- One step. -/
def step (s : State) : Host.Outcome State Fault Refusal :=
  match s.phase with
  | .receiving => receiveTurn s
  | .idle => takeCommand s

/-- `s` with the frame of an opcode-table word as the chunk under reception, so that the very next
step cuts, decodes and runs exactly it (log entry 6). -/
def State.withFetchWord (s : State) (nbits w : Nat) : State :=
  { s with rxBuf := tableFrame nbits w, phase := .receiving }

end Sys2Proof.Machine
end

