-- ==== Sys2Proof/Safety.lean ====
section
/-! DEFINITION. What counts as a sound state, in the terms the claims use: the invariants the spec
states or derives (spec/10_state.md R22 to R41, spec/44_flow_control.md R245, spec/20_memory.md R73,
spec/60_exceptions.md R347), and a few readings of a state. Each invariant is meant to be kept by every
step from every state that has it. -/

namespace Sys2Proof.Machine

/-! ### Readings -/

/-- Every event emitted since the last `Reset`, those of finished commands first (R375). -/
def eventsSoFar (s : State) : List Event :=
  s.trace.flatMap (·.events) ++ s.events

/-- The event reports the end of stream `sid` (R339). -/
def closes (sid : StreamId) : Event → Bool
  | .onStreamClosed k _ => decide (k = sid)
  | .onHeaders _ _ => false
  | .onData _ _ _ => false
  | .onGoaway _ _ => false

/-- The next step takes a `Reset` command. -/
def resetsNext (s : State) : Bool :=
  match s.phase, s.inbox with
  | .idle, .reset _ :: _ => true
  | _, _ => false

/-- The frames of the scheduler in the order the pump emits them: urgent first, then tier by tier,
first in first out (R222). -/
def sendOrder (s : State) : List Instr :=
  s.urgent ++ s.tierq.toList.flatten.map (·.2)

/-- The frame becomes bytes under this configuration (R178). -/
def Encodable (c : Cfg) (f : Instr) : Prop :=
  ∃ buf, encode c.params c.build f = .bytes buf

/-- The ID has been used: a local ID below the next one, or a peer ID no larger than the largest seen
(R22, R23). -/
def usedId (s : State) (sid : StreamId) : Bool :=
  if isLocal s.cfg.role sid then decide (sid.toNat < s.nextStreamId)
  else decide (sid.toNat ≤ s.lastPeerId.toNat)

/-- The receive buffer holds no whole frame (R29). -/
def rxShort (buf : Bytes) : Prop :=
  buf.length < 8 ∨ buf.length < 8 + headerLength buf

/-- The stream a frame is about: `none` for SETTINGS, PING and GOAWAY. -/
def streamOf : Instr → Option StreamId
  | .data sid _ _ => some sid
  | .synStream _ _ sid _ _ _ => some sid
  | .synReply _ _ sid _ => some sid
  | .rstStream _ _ sid _ => some sid
  | .settings _ _ _ => none
  | .ping _ _ _ => none
  | .goaway _ _ _ _ => none
  | .headers _ _ sid _ _ => some sid
  | .windowUpdate _ _ sid _ => some sid

/-- Every TX item produced since the last `Reset`, those of finished commands first (R375). -/
def txSoFar (s : State) : List TxItem :=
  s.trace.flatMap (·.tx) ++ s.tx

/-- The waiting frames of one stream, tier by tier. -/
def waitingFor (sid : StreamId) (s : State) : List (List QueueEntry) :=
  s.tierq.toList.map fun q => q.filter (fun e => decide (e.1 = sid))

/-- The frames one write queues on its stream: a DATA frame for each piece, in order, `FLAG_FIN` on the
last one only, if the write is finished and asked for it (R305). -/
def pieceFrames (c : Cfg) (sid : StreamId) (fin : Bool) (pieces : List Bytes) : List QueueEntry :=
  pieces.zipIdx.map fun (b, i) =>
    (sid, .data sid (if fin = true ∧ i + 1 = pieces.length then c.params.flagFin else 0) b)

/-- What the gate made of one waiting write: the pieces it queued, and the bytes still waiting, `none`
when the write is finished (R305). -/
structure GateOutcome where
  write : PendingWrite
  sent : List Bytes
  left : Option Bytes

/-- The write as it waits after the pass, if it does. -/
def GateOutcome.waits (o : GateOutcome) : Option PendingWrite :=
  o.left.map fun rem => { o.write with bytes := rem }

/-- The payload bytes of a stream's DATA frames in a queue, in order. -/
def queuedPayload (sid : StreamId) (q : List QueueEntry) : Bytes :=
  q.flatMap fun e =>
    match e.2 with
    | .data _ _ payload => if e.1 = sid then payload else []
    | .synStream _ _ _ _ _ _ | .synReply _ _ _ _ | .rstStream _ _ _ _ | .settings _ _ _ | .ping _ _ _
    | .goaway _ _ _ _ | .headers _ _ _ _ _ | .windowUpdate _ _ _ _ => []

/-- The bytes of a stream's pending writes, in order (R41). -/
def pendingBytes (sid : StreamId) (ws : List PendingWrite) : Bytes :=
  (ws.filter fun w => decide (w.sid = sid)).flatMap (·.bytes)

/-- The bytes of a frame this configuration encodes; none for a frame it does not. -/
def wireBytes (c : Cfg) (f : Instr) : Bytes :=
  match encode c.params c.build f with
  | .bytes buf => buf
  | .fault _ => []
  | .refused _ => []

/-! ### The codec's tables, read byte by byte -/

/-- Byte `i` of a buffer. -/
def byteAt (F : Bytes) (i : Nat) : Byte := F.getD i 0

/-- The reserved bits of R110: offset, the bits that must be 0, and the sub-reason of a 1 there, in
ascending offset. -/
def reservedBits (r : Revision) : ControlType → List (Nat × Byte × IllegalBitsSub)
  | .synStream => [(8, 0x80, .streamIdHighBit), (12, 0x80, .streamIdHighBit),
      (16, ~~~priMask r, .reserved), (17, 0xFF, .reserved)]
  | .synReply => [(8, 0x80, .streamIdHighBit)]
  | .rstStream => [(8, 0x80, .streamIdHighBit)]
  | .settings => []
  | .ping => []
  | .goaway => [(8, 0x80, .streamIdHighBit)]
  | .headers => [(8, 0x80, .streamIdHighBit), (12, ~~~priMask r, .reserved), (13, 0xFF, .reserved)]
  | .windowUpdate => [(8, 0x80, .streamIdHighBit), (12, 0x80, .reserved)]

/-- The first violated row of `reservedBits`. -/
def firstReserved (r : Revision) (k : ControlType) (F : Bytes) : Option IllegalBitsSub :=
  ((reservedBits r k).find? fun x => decide (byteAt F x.1 &&& x.2.1 ≠ 0)).map (·.2.2)

/-- The lengths of R146, with the SETTINGS count as the buffer holds it. -/
def lengthAllowed (F : Bytes) (length : Nat) : ControlType → Bool
  | .synStream => decide (10 ≤ length)
  | .synReply => decide (4 ≤ length)
  | .rstStream => decide (length = 8)
  | .settings => decide (4 ≤ length ∧ length = 4 + 8 * beValue ((F.drop 8).take 4))
  | .ping => decide (length = 4)
  | .goaway => decide (length = 8)
  | .headers => decide (6 ≤ length)
  | .windowUpdate => decide (length = 8)

/-- Rows 4 to 6 of R150, common to both classes; `rest` is what the later rows say. -/
def verdictBody (mask : Byte) (F : Bytes) (rest : Option DecodeError) : Option DecodeError :=
  if byteAt F 4 &&& ~~~mask ≠ 0 then some (.illegalBits .flags)
  else if F.length < 8 + headerLength F then some (.malformed .lengthExceedsBuffer)
  else if 8 + headerLength F < F.length then some (.malformed .truncated)
  else rest

/-- The table of R150, row by row: the decode error of a buffer, or `none` for "the `Frame`". -/
def decodeVerdict (p : Params) (F : Bytes) : Option DecodeError :=
  if F.length < 8 then some (.malformed .tooShort)
  else if byteAt F 0 &&& 0x80 = 0 then verdictBody p.dataFlagsMask F none
  else
    let ver : VersionTag := BitVec.ofNat 15 (beValue (F.take 2) - 0x8000)
    let typ : TypeCode := BitVec.ofNat 16 (beValue ((F.drop 2).take 2))
    match revisionOf p ver with
    | none => some (.unknownVersion ver)
    | some r =>
      match controlTypeOf p typ with
      | none => some (.unknownFrameType typ)
      | some k =>
        verdictBody p.controlFlagsMask F <|
          if ¬ lengthAllowed F (headerLength F) k then some (.malformed .badPayloadLength)
          else (firstReserved r k F).map .illegalBits

/-! ### What the error procedures leave -/

/-- The bytes of a GOAWAY frame of this session (R91, R105). -/
def goawayBytes (c : Cfg) (lastGood : StreamId) (status : Word32) : Bytes :=
  beBytes 2 (0x8000 + (wireVersion c).toNat) ++ beBytes 2 c.params.typeGoaway.toNat ++ [0]
    ++ beBytes 3 8 ++ beBytes 4 lastGood.toNat ++ beBytes 4 status.toNat

/-- A session torn down with a GOAWAY of this status after these events (R312, R345, R346): the GOAWAY
is out when the transport is ready, else when the free Boolean says so. -/
def tornDown (status : Word32) (evs : List Event) (s : State) : State :=
  { s with
    mode := .closed
    goaway := .sent
    streams := []
    urgent := []
    tierq := emptyQueues
    pending := []
    rxBuf := []
    events := s.events ++ evs
    tx := s.tx ++ (if s.txReady || Config.flushDraw s.draws
      then [.txBytes (goawayBytes s.cfg s.lastGoodPeerId status)] else []) ++ [.txClose]
    draws := if s.txReady then s.draws else s.draws + 1 }

/-- The events of a session-fatal error (R345 lines 1 and 2). -/
def fatalEvents (cause : FatalCause) (s : State) : List Event :=
  (tableKeys s.streams).map (fun sid => .onStreamClosed sid .aborted)
    ++ [.onGoaway s.lastGoodPeerId (.sessionError cause)]

/-- The state after a session-fatal error (R345). -/
def afterFatal (cause : FatalCause) (s : State) : State :=
  tornDown s.cfg.params.goawayProtocolError (fatalEvents cause s) s

/-- The streams of `gone` removed with everything that waits for them, the session credit of their
unsent DATA given back (R226, R197). -/
def withoutStreams (gone : List StreamId) (s : State) : State :=
  { s with
    streams := s.streams.filter (fun e => decide (e.1 ∉ gone))
    tierq := mapQueues (fun q => q.filter (fun e => decide (e.1 ∉ gone))) s.tierq
    pending := s.pending.filter (fun w => decide (w.sid ∉ gone))
    sessionSendWindow := min maxWindow (s.sessionSendWindow +
      (((s.tierq.toList.flatten.filter (fun e => decide (e.1 ∈ gone))).map
        (fun e => dataSize e.2)).sum : Nat)) }

/-- An RST_STREAM of this session waiting in the urgent queue (R344). -/
def withRst (sid : StreamId) (status : Word32) (s : State) : State :=
  { s with urgent := s.urgent ++ [.rstStream (wireVersion s.cfg) 0 sid status] }

/-- The state after a stream-local error (R343). -/
def afterStreamError (sid : StreamId) (status : Word32) (reason : CloseReason) (s : State) : State :=
  { withRst sid status (withoutStreams [sid] s) with
    events := s.events ++ [.onStreamClosed sid reason] }

/-! ### SETTINGS and GOAWAY readings -/

/-- The stream limits of a SETTINGS frame, in wire order (R267). -/
def limitValues (p : Params) (entries : List SettingsEntry) : List Word32 :=
  (entries.filter fun e => decide (e.id = p.settingsMaxConcurrentStreams)).map (·.value)

/-- The initial windows of a SETTINGS frame, in wire order (R267). -/
def windowValues (p : Params) (entries : List SettingsEntry) : List Word32 :=
  (entries.filter fun e => decide (e.id ≠ p.settingsMaxConcurrentStreams ∧
    e.id = p.settingsInitialWindowSize)).map (·.value)

/-- Setting the initial window to `v` is in range and overflows no stream (R240). -/
def windowFits (v : Word32) (s : State) : Prop :=
  v.toNat ≤ 2 ^ 31 - 1 ∧ ∀ e ∈ s.streams,
    e.2.sendWindow + ((v.toNat : Int) - s.peerInitialWindow.val) ≤ 2 ^ 31 - 1

/-- Every send window moved by the change of the initial window to `v` (R240). -/
def withInitialWindow (v : Credit) (s : State) : State :=
  { s with
    streams := tableMap (fun r =>
      { r with sendWindow := r.sendWindow + ((v.val : Int) - s.peerInitialWindow.val) }) s.streams
    peerInitialWindow := v }

/-- The local streams above a GOAWAY's last-good ID, in ascending order (R270). -/
def abortedBy (lastGood : StreamId) (s : State) : List StreamId :=
  (tableKeys s.streams).filter fun sid =>
    isLocal s.cfg.role sid && decide (lastGood.toNat < sid.toNat)

/-- The configuration, and every configuration a waiting `Reset` would install, is of the type R7
gives it. -/
structure ConfigInv (s : State) : Prop where
  cfg : s.cfg.wf = true
  inbox : ∀ c, Command.reset c ∈ s.inbox → c.wf = true

/-! ### The invariants -/

/-- The stream table (R38) and the ID registers (R22 to R24). -/
structure TableInv (s : State) : Prop where
  canonical : tableWf s.streams = true
  nonzero : ∀ e ∈ s.streams, e.1 ≠ 0
  localBelow : ∀ e ∈ s.streams, isLocal s.cfg.role e.1 = true → e.1.toNat < s.nextStreamId
  peerBelow : ∀ e ∈ s.streams, isLocal s.cfg.role e.1 = false →
    e.1.toNat ≤ s.lastGoodPeerId.toNat
  live : ∀ e ∈ s.streams, e.2.state = .opened ∨ e.2.state = .halfClosedLocal ∨
    e.2.state = .halfClosedRemote
  goodSeen : s.lastGoodPeerId.toNat ≤ s.lastPeerId.toNat
  nextParity : s.nextStreamId % 2 = localParity s.cfg.role
  nextPositive : 0 < s.nextStreamId
  nextBound : s.nextStreamId ≤ 0x80000001

/-- The windows of one stream (R27, R245). -/
structure StreamWindows (c : Cfg) (initial : Int) (r : Stream) : Prop where
  sendAbove : -maxWindow ≤ r.sendWindow - initial
  sendBelow : r.sendWindow ≤ maxWindow
  recvAbove : 0 ≤ r.recvWindow
  recvBelow : r.recvWindow ≤ c.localInitialWindow.val
  recvFull : r.state = .opened ∨ r.state = .halfClosedLocal →
    r.recvWindow = c.localInitialWindow.val

/-- The flow-control windows (R27, R245). -/
structure WindowInv (s : State) : Prop where
  sendAbove : 0 ≤ s.sessionSendWindow
  sendBelow : s.sessionSendWindow ≤ maxWindow
  recvFull : s.sessionRecvWindow = s.cfg.sessionInitialWindow.val
  streams : ∀ e ∈ s.streams, StreamWindows s.cfg s.peerInitialWindow.val e.2

/-- Every frame waiting in the scheduler becomes bytes (R178). -/
structure QueueInv (s : State) : Prop where
  config : ConfigInv s
  urgent : ∀ f ∈ s.urgent, Encodable s.cfg f
  tiers : ∀ q ∈ s.tierq.toList, ∀ e ∈ q, Encodable s.cfg e.2

/-- The mode and the GOAWAY status (R21, R25), the emptiness of a closed session (R347), and what holds
between commands: the outputs handed over (R13), no whole frame left unread (R29), no frame left
waiting for a transport that is ready (R315). -/
structure SessionInv (s : State) : Prop where
  activeNone : s.mode = .active → s.goaway = .none
  goingReceived : s.mode = .goingAway → ∃ g, s.goaway = .received g
  sentClosed : s.goaway = .sent → s.mode = .closed
  closedEmpty : s.mode = .closed →
    s.streams = [] ∧ s.urgent = [] ∧ s.tierq = emptyQueues ∧ s.pending = []
  receivingLive : s.phase = .receiving → s.mode ≠ .fault
  receivingClosed : s.phase = .receiving → s.mode = .closed → s.rxBuf = []
  idleReturned : s.phase = .idle → s.events = [] ∧ s.tx = []
  idleShort : s.phase = .idle → rxShort s.rxBuf
  idleSent : s.phase = .idle → s.txReady = true → s.urgent = [] ∧ s.tierq = emptyQueues

/-- The pending writes (R41): each belongs to a stream in the table that may still send; a write with
FIN is the last of its stream and its stream is marked; and between commands each is blocked by credit
or behind an earlier write of its stream. -/
structure PendingInv (s : State) : Prop where
  config : ConfigInv s
  sendable : ∀ w ∈ s.pending, ∃ r, tableGet s.streams w.sid = some r ∧
    (r.state = .opened ∨ r.state = .halfClosedRemote) ∧
    (w.fin = true → r.localFinQueued = true)
  finLast : s.pending.Pairwise fun a b => a.fin = true → a.sid ≠ b.sid
  closedNone : s.mode = .closed → s.pending = []
  receivingLive : s.phase = .receiving → s.mode ≠ .fault
  blocked : s.phase = .idle → ∀ before w after, s.pending = before ++ w :: after →
    w.bytes ≠ [] → (∃ e ∈ before, e.sid = w.sid) ∨ ∃ a, avail w.sid s = some a ∧ a ≤ 0

/-- All waiting frames of a stream in the table are in the one queue of its tier (R73), and no ID that
waits or is in the table is unused. -/
structure TierInv (s : State) : Prop where
  oneQueue : ∀ t : Fin 8, ∀ e ∈ s.tierq[t], ∀ r, tableGet s.streams e.1 = some r → r.tier = t
  queuedUsed : ∀ t : Fin 8, ∀ e ∈ s.tierq[t], usedId s e.1 = true
  tableUsed : ∀ sid r, tableGet s.streams sid = some r → usedId s sid = true

/-- Tiers are normalised: below `N_TIERS` of the session's revision (R36), so that under the legacy
revision queues 4 to 7 stay empty (R40). -/
structure RevisionInv (s : State) : Prop where
  config : ConfigInv s
  records : ∀ e ∈ s.streams, e.2.tier.val < nTiers s.cfg.version
  queues : ∀ t : Fin 8, nTiers s.cfg.version ≤ t.val → s.tierq[t] = []

end Sys2Proof.Machine
end

