-- ==== Sys2Proof/Certificates/Slice0/Obligations.lean ====
section
/-! DEFINITION. The statements for the provers, in the order of OBLIGATIONS.json: the codec, the
receive loop, the nine frames, the scheduler and the windows, the commands, the invariants. None of
them rests on a particular value of the constants of R9: those are fields of `Params`. -/

open Sys2Proof Sys2Proof.Machine

/-! ### The codec -/

/-- R177 (2): decoding an encoded well-formed frame gives it back, in either build. -/
def Obligations.DecodeInvertsEncode : Prop :=
  ∀ (p : Params) (build : Build) (f : Instr),
    p.wf = true → f.wf p = true → f.tierOk p = true →
    ∃ buf, encode p build f = .bytes buf ∧ decode p buf = .ok f

/-- R177 (1): a frame that decodes is well formed, its tier is in range, and it encodes to the same
bytes in either build. -/
def Obligations.EncodeInvertsDecode : Prop :=
  ∀ (p : Params) (build : Build) (F : Bytes) (f : Instr), decode p F = .ok f →
    f.wf p = true ∧ f.tierOk p = true ∧ encode p build f = .bytes F

/-- R150: the table of decode errors, first row first, decides every buffer. -/
def Obligations.DecodePrecedence : Prop :=
  ∀ (p : Params) (F : Bytes),
    match decodeVerdict p F with
    | some e => decode p F = .error e
    | none => ∃ f, decode p F = .ok f

/-- R140, R151: decode never reads past the end of its buffer, and the errors it answers are those of
its type (the capacity error belongs to the receive loop). -/
def Obligations.DecodeStaysInBounds : Prop :=
  ∀ (p : Params) (F : Bytes),
    decode p F ≠ .error .outOfBounds ∧ decode p F ≠ .error (.malformed .frameTooLarge)

/-- R176: the length law. -/
def Obligations.EncodedLength : Prop :=
  ∀ (p : Params) (build : Build) (f : Instr) (buf : Bytes), f.wf p = true →
    encode p build f = .bytes buf → buf.length = 8 + f.plen ∧ memRead buf 5 3 = .ok f.plen

/-- R172, R173, R175: every field of an encoded frame, read back at its offset; reserved bytes are 0. -/
def Obligations.EncodedFields : Prop :=
  ∀ (p : Params) (build : Build) (f : Instr) (buf : Bytes), encode p build f = .bytes buf →
    (∀ ver k, f.ver? = some ver → f.controlType? = some k →
      memRead buf 0 2 = .ok (0x8000 + ver.toNat) ∧ memRead buf 2 2 = .ok (p.typeCode k).toNat) ∧
    memRead buf 4 1 = .ok f.flags.toNat ∧ memRead buf 5 3 = .ok f.plen ∧
    match f with
    | .data sid _ payload => memRead buf 0 4 = .ok sid.toNat ∧ buf.drop 8 = payload
    | .synStream ver _ sid assoc tier hb =>
      memRead buf 8 4 = .ok sid.toNat ∧ memRead buf 12 4 = .ok assoc.toNat ∧
      (∀ r, revisionOf p ver = some r →
        memRead buf 16 1 = .ok (min tier.val (nTiers r - 1) * 2 ^ priShift r)) ∧
      memRead buf 17 1 = .ok 0 ∧ buf.drop 18 = hb
    | .synReply _ _ sid hb => memRead buf 8 4 = .ok sid.toNat ∧ buf.drop 12 = hb
    | .rstStream _ _ sid status =>
      memRead buf 8 4 = .ok sid.toNat ∧ memRead buf 12 4 = .ok status.toNat
    | .settings _ _ entries => memRead buf 8 4 = .ok entries.length ∧
      ∀ k e, entries[k]? = some e → memRead buf (12 + 8 * k) 1 = .ok e.eflags.toNat ∧
        memRead buf (13 + 8 * k) 3 = .ok e.id.toNat ∧
        memRead buf (16 + 8 * k) 4 = .ok e.value.toNat
    | .ping _ _ id => memRead buf 8 4 = .ok id.toNat
    | .goaway _ _ lastGood status =>
      memRead buf 8 4 = .ok lastGood.toNat ∧ memRead buf 12 4 = .ok status.toNat
    | .headers ver _ sid tier hb =>
      memRead buf 8 4 = .ok sid.toNat ∧
      (∀ r, revisionOf p ver = some r →
        memRead buf 12 1 = .ok (min tier.val (nTiers r - 1) * 2 ^ priShift r)) ∧
      memRead buf 13 1 = .ok 0 ∧ buf.drop 14 = hb
    | .windowUpdate _ _ sid delta =>
      memRead buf 8 4 = .ok sid.toNat ∧ memRead buf 12 4 = .ok delta.toNat

/-- R174: what the priority byte of an encoded SYN_STREAM or HEADERS is, for a tier in range and for
one out of range in each build. -/
def Obligations.EncodeTierPolicy : Prop :=
  ∀ (p : Params) (build : Build) (ver : VersionTag) (r : Revision) (flags : Byte) (sid assoc : StreamId)
    (tier : Fin 8) (hb : Bytes) (f : Instr) (off : Nat),
    (f = .synStream ver flags sid assoc tier hb ∧ off = 16 ∨
      f = .headers ver flags sid tier hb ∧ off = 12) →
    revisionOf p ver = some r → flags &&& ~~~p.controlFlagsMask = 0 → f.plen ≤ 0xFFFFFF →
    (tier.val < nTiers r → ∃ buf, encode p build f = .bytes buf ∧
      (byteAt buf off).toNat = tier.val * 2 ^ priShift r) ∧
    (nTiers r ≤ tier.val → build = .debug → encode p build f = .fault .tierRange) ∧
    (nTiers r ≤ tier.val → build = .release → ∃ buf, encode p build f = .bytes buf ∧
      (byteAt buf off).toNat = (nTiers r - 1) * 2 ^ priShift r)

/-- R171, conditions (2) and (3): what encode refuses. Which refusal wins when several conditions fail is
the model's own choice (log entry 8): illegal flags before the length, the length before the version. -/
def Obligations.EncodeRefusals : Prop :=
  ∀ (p : Params) (build : Build) (f : Instr),
    (f.flags &&& ~~~(if f.controlType?.isSome then p.controlFlagsMask else p.dataFlagsMask) ≠ 0 →
      encode p build f = .refused .illegalFlags) ∧
    (f.flags &&& ~~~(if f.controlType?.isSome then p.controlFlagsMask else p.dataFlagsMask) = 0 →
      0xFFFFFF < f.plen → encode p build f = .refused .tooLong)

/-- R99, R147, R177 (3): a SYN_STREAM with priority byte `b` decodes to the tier in its top bits, and
to `IllegalBits(RESERVED)` when a bit below them is set; the tier is below `N_TIERS`. -/
def Obligations.PriorityByteDecodes : Prop :=
  ∀ (p : Params) (r : Revision) (b : Byte) (sid assoc : StreamId) (hb : Bytes),
    p.wf = true → 10 + hb.length ≤ 0xFFFFFF →
    decode p (controlHeader (versionTag p r) p.typeSynStream 0 (10 + hb.length)
        ++ beBytes 4 sid.toNat ++ beBytes 4 assoc.toNat ++ [b, 0] ++ hb) =
      (if b.toNat % 2 ^ priShift r = 0 then
        .ok (.synStream (versionTag p r) 0 sid assoc (Fin.ofNat 8 (b.toNat / 2 ^ priShift r)) hb)
      else .error (.illegalBits .reserved)) ∧
    b.toNat / 2 ^ priShift r < nTiers r

/-- R113: the header word of a frame that decodes has the mask and match bits of its row of the opcode
table. -/
def Obligations.OpcodeMap : Prop :=
  ∀ (p : Params) (F : Bytes) (f : Instr), decode p F = .ok f →
    match f.controlType? with
    | none => beValue (F.take 8) &&& 0x8000000000000000 = 0
    | some k => beValue (F.take 8) &&& 0x8000FFFF00000000 =
        0x8000000000000000 + (p.typeCode k).toNat * 2 ^ 32

/-- A few words written out from the encodings of R91, R92 and R100 to R107, one of every frame kind: the
vectors V41, V45, V47, V48, V50, V51, V52, V53 of spec/95_test_vectors.md, and for SETTINGS a one-entry
word written from R103, which is no vector. The type codes, version tags and masks are the defaults of
R9, PRESUMED (log entry 2). -/
def Obligations.SpecWordsDecode : Prop :=
  decode Params.default [0x00, 0x00, 0x00, 0x01, 0x01, 0x00, 0x00, 0x03, 0x61, 0x62, 0x63]
      = .ok (.data 1 0x01 [0x61, 0x62, 0x63]) ∧
  decode Params.default [0x80, 0x02, 0x00, 0x01, 0x00, 0x00, 0x00, 0x0a, 0x00, 0x00, 0x00, 0x01, 0x00,
      0x00, 0x00, 0x00, 0xc0, 0x00] = .ok (.synStream 2 0 1 0 3 []) ∧
  decode Params.default [0x80, 0x03, 0x00, 0x02, 0x00, 0x00, 0x00, 0x07, 0x00, 0x00, 0x00, 0x01, 0x01,
      0x02, 0x03] = .ok (.synReply 3 0 1 [0x01, 0x02, 0x03]) ∧
  decode Params.default [0x80, 0x03, 0x00, 0x03, 0x00, 0x00, 0x00, 0x08, 0x00, 0x00, 0x00, 0x05, 0x00,
      0x00, 0x00, 0x05] = .ok (.rstStream 3 0 5 5) ∧
  decode Params.default [0x80, 0x03, 0x00, 0x04, 0x00, 0x00, 0x00, 0x0c, 0x00, 0x00, 0x00, 0x01, 0x01,
      0xff, 0xff, 0xff, 0x00, 0x00, 0x00, 0x64] = .ok (.settings 3 0 [⟨1, 0xffffff, 100⟩]) ∧
  decode Params.default [0x80, 0x03, 0x00, 0x06, 0x00, 0x00, 0x00, 0x04, 0x01, 0x02, 0x03, 0x04]
      = .ok (.ping 3 0 16909060) ∧
  decode Params.default [0x80, 0x03, 0x00, 0x07, 0x00, 0x00, 0x00, 0x08, 0x00, 0x00, 0x00, 0x03, 0x00,
      0x00, 0x00, 0x00] = .ok (.goaway 3 0 3 0) ∧
  decode Params.default [0x80, 0x03, 0x00, 0x08, 0x00, 0x00, 0x00, 0x07, 0x00, 0x00, 0x00, 0x07, 0x40,
      0x00, 0x09] = .ok (.headers 3 0 7 2 [0x09]) ∧
  decode Params.default [0x80, 0x03, 0x00, 0x09, 0x00, 0x00, 0x00, 0x08, 0x00, 0x00, 0x00, 0x01, 0x00,
      0x00, 0x00, 0x01] = .ok (.windowUpdate 3 0 1 1)

/-! ### The receive loop -/

/-- R261, R262: when the first bytes of the receive buffer are a whole frame that decodes to `f`, the
step moves the cursor past it and is `exec` of `f` there. -/
def Obligations.StepRunsDecodedFrame : Prop :=
  ∀ (s : State) (f : Instr),
    s.phase = .receiving → s.mode ≠ .closed → 8 ≤ s.rxBuf.length →
    8 + headerLength s.rxBuf ≤ s.cfg.rxBufMax → 8 + headerLength s.rxBuf ≤ s.rxBuf.length →
    decode s.cfg.params (s.rxBuf.take (8 + headerLength s.rxBuf)) = .ok f →
    step s = exec f { s with
      rxBuf := s.rxBuf.drop (8 + headerLength s.rxBuf)
      rxOffset := s.rxOffset + (8 + headerLength s.rxBuf) }

/-- R261, R272: every other turn of the loop. It waits (and the command ends) on a closed session, an
incomplete header or an incomplete payload; it is fatal on a frame over capacity, on `Malformed`, on
`IllegalBits` and on an unknown version; it skips a frame of unknown type. -/
def Obligations.ReceiveLoop : Prop :=
  ∀ (s : State), s.phase = .receiving →
    let total := 8 + headerLength s.rxBuf
    let past : State := { s with rxBuf := s.rxBuf.drop total, rxOffset := s.rxOffset + total }
    (s.mode = .closed ∨ s.rxBuf.length < 8 ∨ total ≤ s.cfg.rxBufMax ∧ s.rxBuf.length < total →
      step s = andThen (epilogue s) fun t => .next (ret .ok t)) ∧
    (s.mode ≠ .closed → 8 ≤ s.rxBuf.length → s.cfg.rxBufMax < total →
      step s = .next (afterFatal (.malformed .frameTooLarge) s)) ∧
    (s.mode ≠ .closed → 8 ≤ s.rxBuf.length → total ≤ s.cfg.rxBufMax → total ≤ s.rxBuf.length →
      (∀ typ, decode s.cfg.params (s.rxBuf.take total) = .error (.unknownFrameType typ) →
        step s = .next past) ∧
      (∀ sub, decode s.cfg.params (s.rxBuf.take total) = .error (.malformed sub) →
        step s = .next (afterFatal (.malformed sub) past)) ∧
      (∀ sub, decode s.cfg.params (s.rxBuf.take total) = .error (.illegalBits sub) →
        step s = .next (afterFatal (.illegalBits sub) past)) ∧
      (∀ ver, decode s.cfg.params (s.rxBuf.take total) = .error (.unknownVersion ver) →
        step s = .next (afterFatal (.unknownVersion .unrecognised) past)) ∧
      (∀ f, decode s.cfg.params (s.rxBuf.take total) = .ok f → step s = exec f past))

/-- R29: each frame the loop takes advances the cursor by exactly `8 + length`, and what is left of the
buffer is what follows it, or nothing when the session ended. -/
def Obligations.CursorAdvances : Prop :=
  ∀ (s t : State),
    s.phase = .receiving → s.mode ≠ .closed → 8 ≤ s.rxBuf.length →
    8 + headerLength s.rxBuf ≤ s.cfg.rxBufMax → 8 + headerLength s.rxBuf ≤ s.rxBuf.length →
    step s = .next t →
    t.rxOffset = s.rxOffset + (8 + headerLength s.rxBuf) ∧
      (t.rxBuf = s.rxBuf.drop (8 + headerLength s.rxBuf) ∨ t.mode = .closed ∧ t.rxBuf = [])

/-- R71, R75: the bytes behind a whole frame do not change what that frame does; they wait behind it,
unless the frame ends the session. -/
def Obligations.LaterBytesWait : Prop :=
  ∀ (s t : State) (extra : Bytes),
    s.phase = .receiving → s.mode ≠ .closed → 8 ≤ s.rxBuf.length →
    8 + headerLength s.rxBuf ≤ s.rxBuf.length → step s = .next t →
    step { s with rxBuf := s.rxBuf ++ extra } =
      .next (if t.mode = .closed then t else { t with rxBuf := t.rxBuf ++ extra })

/-! ### The frames -/

/-- R262: a control frame of another version, and a frame that must name a stream and names 0, are
session-fatal, in this order. -/
def Obligations.DispatchChecks : Prop :=
  ∀ (s : State) (f : Instr),
    (∀ ver, f.ver? = some ver → ver ≠ wireVersion s.cfg →
      exec f s = .next (afterFatal (.unknownVersion .versionMismatch) s)) ∧
    ((∀ ver, f.ver? = some ver → ver = wireVersion s.cfg) → streamOf f = some 0 →
      f.controlType? ≠ some .windowUpdate →
      exec f s = .next (afterFatal (.sessionProtocolError .streamIdZero) s))

/-- R266, R242: DATA. An unknown stream is answered with RST_STREAM; a stream the peer may not send on
gets a stream error; more bytes than a receive window holds are fatal; else the bytes are delivered,
FIN finishes the peer's direction, and the credit goes back. -/
def Obligations.DataReceived : Prop :=
  ∀ (s : State) (sid : StreamId) (flags : Byte) (payload : Bytes),
    tableWf s.streams = true → sid ≠ 0 →
    let p := s.cfg.params
    let n := payload.length
    let credited := s.urgent ++
      (if n = 0 then [] else [.windowUpdate (wireVersion s.cfg) 0 0 (BitVec.ofNat 31 n)])
    (tableGet s.streams sid = none →
      exec (.data sid flags payload) s = .next (withRst sid p.rstInvalidStream s)) ∧
    (∀ r, tableGet s.streams sid = some r → r.state ≠ .opened → r.state ≠ .halfClosedLocal →
      exec (.data sid flags payload) s = .next
        (afterStreamError sid p.rstProtocolError (.streamProtocolError .invalidTransition) s)) ∧
    (∀ r, tableGet s.streams sid = some r → r.state = .opened ∨ r.state = .halfClosedLocal →
      r.recvWindow < n ∨ s.sessionRecvWindow < n →
      exec (.data sid flags payload) s =
        .next (afterFatal (.flowControlViolation .recvWindowExceeded) s)) ∧
    (∀ r, tableGet s.streams sid = some r → r.state = .opened ∨ r.state = .halfClosedLocal →
      n ≤ r.recvWindow → n ≤ s.sessionRecvWindow → flags &&& p.flagFin = 0 →
      exec (.data sid flags payload) s = .next { s with
        events := s.events ++ [.onData sid payload false]
        urgent := credited
        tierq := if n = 0 then s.tierq else s.tierq.set r.tier (s.tierq[r.tier] ++
          [(sid, .windowUpdate (wireVersion s.cfg) 0 sid (BitVec.ofNat 31 n))]) }) ∧
    (∀ r, tableGet s.streams sid = some r → r.state = .opened →
      n ≤ r.recvWindow → n ≤ s.sessionRecvWindow → flags &&& p.flagFin ≠ 0 →
      exec (.data sid flags payload) s = .next { s with
        events := s.events ++ [.onData sid payload true]
        urgent := credited
        streams := tablePut s.streams sid
          { r with state := .halfClosedRemote, recvWindow := r.recvWindow - n } }) ∧
    (∀ r, tableGet s.streams sid = some r → r.state = .halfClosedLocal →
      n ≤ r.recvWindow → n ≤ s.sessionRecvWindow → flags &&& p.flagFin ≠ 0 →
      exec (.data sid flags payload) s = .next { s with
        events := s.events ++ [.onData sid payload true, .onStreamClosed sid .normal]
        urgent := credited
        streams := tableErase s.streams sid })

/-- R263, R199: SYN_STREAM. Wrong parity is stream-local, a non-increasing ID fatal, a stream over the
limit refused; else the stream is opened with its initial windows, half closed at once under FIN. -/
def Obligations.SynStreamReceived : Prop :=
  ∀ (s : State) (flags : Byte) (sid assoc : StreamId) (tier : Fin 8) (hb : Bytes),
    TableInv s → sid ≠ 0 →
    let p := s.cfg.params
    let f := Instr.synStream (wireVersion s.cfg) flags sid assoc tier hb
    let fresh : Stream :=
      { state := .opened, tier := tier, sendWindow := s.peerInitialWindow.val,
        recvWindow := s.cfg.localInitialWindow.val, localFinQueued := false }
    (isLocal s.cfg.role sid = true → (tableGet s.streams sid).isSome = true →
      exec f s = .next
        (afterStreamError sid p.rstProtocolError (.streamProtocolError .wrongParity) s)) ∧
    (isLocal s.cfg.role sid = true → tableGet s.streams sid = none →
      exec f s = .next (withRst sid p.rstProtocolError s)) ∧
    (isLocal s.cfg.role sid = false → sid.toNat ≤ s.lastPeerId.toNat →
      exec f s = .next (afterFatal (.sessionProtocolError .streamIdNotIncreasing) s)) ∧
    (isLocal s.cfg.role sid = false → s.lastPeerId.toNat < sid.toNat →
      s.cfg.maxPeerStreams ≤ countPeer s →
      exec f s = .next { withRst sid p.rstRefusedStream s with lastPeerId := sid }) ∧
    (isLocal s.cfg.role sid = false → s.lastPeerId.toNat < sid.toNat →
      countPeer s < s.cfg.maxPeerStreams → flags &&& p.flagFin = 0 →
      exec f s = .next { s with
        lastPeerId := sid
        lastGoodPeerId := sid
        streams := tablePut s.streams sid fresh
        events := s.events ++ [.onHeaders sid hb] }) ∧
    (isLocal s.cfg.role sid = false → s.lastPeerId.toNat < sid.toNat →
      countPeer s < s.cfg.maxPeerStreams → flags &&& p.flagFin ≠ 0 →
      exec f s = .next { s with
        lastPeerId := sid
        lastGoodPeerId := sid
        streams := tablePut s.streams sid { fresh with state := .halfClosedRemote }
        events := s.events ++ [.onHeaders sid hb, .onData sid [] true] })

/-- R264, R265, R201: SYN_REPLY and HEADERS, the same text: a header block on a stream the peer may
send on, whoever opened it and however often; the tier of a HEADERS changes nothing. -/
def Obligations.HeaderFramesReceived : Prop :=
  ∀ (s : State) (flags : Byte) (sid : StreamId) (tier : Fin 8) (hb : Bytes) (f : Instr),
    (f = .synReply (wireVersion s.cfg) flags sid hb ∨
      f = .headers (wireVersion s.cfg) flags sid tier hb) →
    tableWf s.streams = true → sid ≠ 0 →
    let p := s.cfg.params
    (tableGet s.streams sid = none → exec f s = .next (withRst sid p.rstInvalidStream s)) ∧
    (∀ r, tableGet s.streams sid = some r → r.state ≠ .opened → r.state ≠ .halfClosedLocal →
      exec f s = .next
        (afterStreamError sid p.rstProtocolError (.streamProtocolError .invalidTransition) s)) ∧
    (∀ r, tableGet s.streams sid = some r → r.state = .opened ∨ r.state = .halfClosedLocal →
      flags &&& p.flagFin = 0 →
      exec f s = .next { s with events := s.events ++ [.onHeaders sid hb] }) ∧
    (∀ r, tableGet s.streams sid = some r → r.state = .opened → flags &&& p.flagFin ≠ 0 →
      exec f s = .next { s with
        events := s.events ++ [.onHeaders sid hb, .onData sid [] true]
        streams := tablePut s.streams sid { r with state := .halfClosedRemote } }) ∧
    (∀ r, tableGet s.streams sid = some r → r.state = .halfClosedLocal → flags &&& p.flagFin ≠ 0 →
      exec f s = .next { s with
        events := s.events ++
          [.onHeaders sid hb, .onData sid [] true, .onStreamClosed sid .normal]
        streams := tableErase s.streams sid })

/-- R271: RST_STREAM. Without a record it is ignored; else the stream and all that waits for it go, the
session credit of its unsent DATA comes back, and no reply is sent. -/
def Obligations.RstStreamReceived : Prop :=
  ∀ (s : State) (flags : Byte) (sid : StreamId) (status : Word32), sid ≠ 0 →
    (tableGet s.streams sid = none →
      exec (.rstStream (wireVersion s.cfg) flags sid status) s = .next s) ∧
    ((tableGet s.streams sid).isSome = true →
      exec (.rstStream (wireVersion s.cfg) flags sid status) s = .next
        { withoutStreams [sid] s with
          events := s.events ++ [.onStreamClosed sid (.resetByPeer status)] })

/-- R267, R240: SETTINGS. When every initial window it carries is in range and overflows no stream, the
last one takes effect on every stream and the last stream limit is kept; other entries do nothing. The
first entry that is out of range or overflows a stream is fatal, after the entries before it. -/
def Obligations.SettingsReceived : Prop :=
  ∀ (s : State) (flags : Byte) (good : List SettingsEntry) (v : Credit),
    let p := s.cfg.params
    (∀ w ∈ windowValues p good, windowFits w s) →
    v.val = ((windowValues p good).getLast?.map (·.toNat)).getD s.peerInitialWindow.val →
    let applied : State := { withInitialWindow v s with
      peerMaxStreams := (limitValues p good).getLast?.or s.peerMaxStreams }
    exec (.settings (wireVersion s.cfg) flags good) s = .next applied ∧
    (∀ (e : SettingsEntry) (rest : List SettingsEntry),
      e.id ≠ p.settingsMaxConcurrentStreams → e.id = p.settingsInitialWindowSize →
      (2 ^ 31 - 1 < e.value.toNat →
        exec (.settings (wireVersion s.cfg) flags (good ++ e :: rest)) s =
          .next (afterFatal (.flowControlViolation .initialWindowRange) applied)) ∧
      (e.value.toNat ≤ 2 ^ 31 - 1 → ¬ windowFits e.value s →
        exec (.settings (wireVersion s.cfg) flags (good ++ e :: rest)) s =
          .next (afterFatal (.flowControlViolation .windowOverflow) applied)))

/-- R268, R238: WINDOW_UPDATE. ID 0 credits the session window, any other ID its stream's, an unknown
stream nothing; past `2^31 - 1` the session dies, or the stream. -/
def Obligations.WindowUpdateReceived : Prop :=
  ∀ (s : State) (flags : Byte) (sid : StreamId) (delta : BitVec 31),
    let f := Instr.windowUpdate (wireVersion s.cfg) flags sid delta
    (sid = 0 → s.sessionSendWindow + delta.toNat ≤ 2 ^ 31 - 1 →
      exec f s = .next { s with sessionSendWindow := s.sessionSendWindow + delta.toNat }) ∧
    (sid = 0 → 2 ^ 31 - 1 < s.sessionSendWindow + delta.toNat →
      exec f s = .next (afterFatal (.flowControlViolation .windowOverflow) s)) ∧
    (sid ≠ 0 → tableGet s.streams sid = none → exec f s = .next s) ∧
    (sid ≠ 0 → ∀ r, tableGet s.streams sid = some r →
      r.sendWindow + delta.toNat ≤ 2 ^ 31 - 1 →
      exec f s = .next { s with
        streams := tablePut s.streams sid { r with sendWindow := r.sendWindow + delta.toNat } }) ∧
    (sid ≠ 0 → ∀ r, tableGet s.streams sid = some r →
      2 ^ 31 - 1 < r.sendWindow + delta.toNat →
      exec f s = .next (afterStreamError sid s.cfg.params.rstFlowControlError
        (.streamProtocolError .windowOverflow) s))

/-- R269: PING is echoed with the same ID, ahead of every tier; nothing else changes. -/
def Obligations.PingReceived : Prop :=
  ∀ (s : State) (flags : Byte) (id : Word32),
    exec (.ping (wireVersion s.cfg) flags id) s =
      .next { s with urgent := s.urgent ++ [.ping (wireVersion s.cfg) 0 id] }

/-- R270: GOAWAY. The mode and the last-good ID are set, the application is told, and exactly the local
streams above the last-good ID are aborted, in ascending ID, without an RST_STREAM. -/
def Obligations.GoawayReceived : Prop :=
  ∀ (s : State) (flags : Byte) (lastGood : StreamId) (status : Word32),
    tableWf s.streams = true → s.sessionSendWindow ≤ 2 ^ 31 - 1 →
    (abortedBy lastGood s).Pairwise (fun a b => a.toNat < b.toNat) ∧
    exec (.goaway (wireVersion s.cfg) flags lastGood status) s = .next
      { withoutStreams (abortedBy lastGood s) s with
        goaway := .received lastGood
        mode := .goingAway
        events := s.events ++ .onGoaway lastGood (.peerGoaway status) ::
          (abortedBy lastGood s).map fun sid => .onStreamClosed sid .aborted }

/-- R348: handling a received frame never fails: whatever the frame and the state, there is a next
state. -/
def Obligations.EveryFrameAnswers : Prop :=
  ∀ (f : Instr) (s : State), ∃ t, exec f s = .next t

/-- The frame of `exec`: what no received frame changes, and what only one kind of frame changes (R22,
R23, R24, R28, R31, R32, R33, R245 (3)). -/
def Obligations.ExecFrame : Prop :=
  ∀ (f : Instr) (s t : State), exec f s = .next t →
    t.cfg = s.cfg ∧ t.nextStreamId = s.nextStreamId ∧ t.txReady = s.txReady ∧
    t.rxOffset = s.rxOffset ∧ t.sessionRecvWindow = s.sessionRecvWindow ∧
    t.phase = s.phase ∧ t.inbox = s.inbox ∧ t.trace = s.trace ∧ t.earlier = s.earlier ∧
    (∃ evs, t.events = s.events ++ evs) ∧
    (t.mode ≠ .closed → t.tx = s.tx ∧ t.rxBuf = s.rxBuf ∧ t.draws = s.draws) ∧
    (f.controlType? ≠ some .synStream →
      t.lastPeerId = s.lastPeerId ∧ t.lastGoodPeerId = s.lastGoodPeerId) ∧
    (f.controlType? ≠ some .settings →
      t.peerInitialWindow = s.peerInitialWindow ∧ t.peerMaxStreams = s.peerMaxStreams) ∧
    (f.controlType? ≠ some .goaway → t.mode ≠ .closed → t.mode = s.mode ∧ t.goaway = s.goaway)

/-- R200: strict fault isolation. A frame about one stream that does not end the session leaves every
other stream's record, waiting frames and waiting writes as they are, and the mode. -/
def Obligations.FramesTouchOneStream : Prop :=
  ∀ (f : Instr) (s t : State) (sid k : StreamId),
    streamOf f = some sid → exec f s = .next t → t.mode ≠ .closed → k ≠ sid →
    tableGet t.streams k = tableGet s.streams k ∧ waitingFor k t = waitingFor k s ∧
    t.pending.filter (fun w => decide (w.sid = k)) =
      s.pending.filter (fun w => decide (w.sid = k)) ∧
    t.mode = s.mode ∧ t.goaway = s.goaway

/-! ### The stream machine, the scheduler and the windows -/

/-- R196: the transition function has exactly these cells. -/
def Obligations.TransitionTable : Prop :=
  ∀ (a b : StreamState) (e : StreamEvent), nextState a e = some b ↔
    (a, e, b) ∈ [
      (.idle, .sendSyn, .opened), (.idle, .recvSyn, .opened),
      (.idle, .sendRst, .closed), (.idle, .recvRst, .closed),
      (.opened, .sendFrame, .opened), (.opened, .recvFrame, .opened),
      (.opened, .sendFin, .halfClosedLocal), (.opened, .recvFin, .halfClosedRemote),
      (.opened, .sendRst, .closed), (.opened, .recvRst, .closed),
      (.halfClosedLocal, .recvFrame, .halfClosedLocal), (.halfClosedLocal, .recvFin, .closed),
      (.halfClosedLocal, .sendRst, .closed), (.halfClosedLocal, .recvRst, .closed),
      (.halfClosedRemote, .sendFrame, .halfClosedRemote), (.halfClosedRemote, .sendFin, .closed),
      (.halfClosedRemote, .sendRst, .closed), (.halfClosedRemote, .recvRst, .closed)]

/-- R222: the urgent queue first, then the lowest tier number that is not empty, first in first out;
nothing else changes. -/
def Obligations.NextPrecedence : Prop :=
  ∀ (s : State),
    (∀ f rest, s.urgent = f :: rest → next s = some (f, { s with urgent := rest })) ∧
    (∀ (t : Fin 8) sid f rest, s.urgent = [] → (∀ u : Fin 8, u < t → s.tierq[u] = []) →
      s.tierq[t] = (sid, f) :: rest →
      next s = some (f, { s with tierq := s.tierq.set t rest })) ∧
    (s.urgent = [] → (∀ t : Fin 8, s.tierq[t] = []) → next s = none)

/-- R226, R237: the session credit that a queued DATA frame consumed comes back when its stream is
purged: queueing it and purging leaves the session window of purging alone. -/
def Obligations.PurgeReturnsCredit : Prop :=
  ∀ (s : State) (sid : StreamId) (r : Stream) (flags : Byte) (payload : Bytes),
    tableGet s.streams sid = some r →
    (purge sid (enqueue sid (.data sid flags payload)
      (consume sid payload.length s))).sessionSendWindow = (purge sid s).sessionSendWindow

/-- R236, R237: `reserve` grants exactly the sizes up to `avail` when that is not negative, and changes
nothing; after a granted `consume` both windows are down by `n`, not below 0 (the session's when it was
not), and no other window moves. -/
def Obligations.CreditGate : Prop :=
  ∀ (s : State) (sid : StreamId) (r : Stream) (n : Nat), tableGet s.streams sid = some r →
    (reserve sid n s = true ↔ ∃ a, avail sid s = some a ∧ (n : Int) ≤ a ∧ 0 ≤ a) ∧
    (reserve sid n s = true →
      consume sid n s = { s with
        streams := tablePut s.streams sid { r with sendWindow := r.sendWindow - n }
        sessionSendWindow := s.sessionSendWindow - n } ∧
      0 ≤ r.sendWindow - n ∧ 0 ≤ s.sessionSendWindow - n)

/-- R305, R73, R236, R237, R197: one waiting write through the gate, on a stream in the table that may
still send. What is queued are pieces of its bytes in order, each no longer than `max_data_payload`, in
the stream's own tier queue behind what waited there; they are paid for byte by byte from both the
stream's and the session's window, within the credit there was; FIN is on the last piece only, when the
write is finished and asked for it, and then this side is closed: the stream is half closed, or, if the
peer had finished, removed with `on_stream_closed(NORMAL)`. Bytes are left only without credit, an empty
write only on a negative window. -/
def Obligations.DrainKeepsBytes : Prop :=
  ∀ (s t : State) (sid : StreamId) (bytes : Bytes) (fin : Bool) (left : Option Bytes) (r : Stream),
    tableWf s.streams = true → tableGet s.streams sid = some r →
    r.state = .opened ∨ r.state = .halfClosedRemote →
    drainWrite (bytes.length + 1) sid bytes fin s = (t, left) →
    ∃ sent : List Bytes,
      let cost : Int := sent.flatten.length
      let finished := left = none ∧ fin = true
      sent.flatten ++ left.getD [] = bytes ∧
      (∀ b ∈ sent, b.length ≤ s.cfg.maxDataPayload.val) ∧
      (left = none → sent ≠ []) ∧
      (sent ≠ [] → cost ≤ r.sendWindow ∧ cost ≤ s.sessionSendWindow) ∧
      t = { s with
        streams := if finished ∧ r.state = .halfClosedRemote then tableErase s.streams sid
          else tablePut s.streams sid { r with
            sendWindow := r.sendWindow - cost
            state := if finished then .halfClosedLocal else r.state }
        sessionSendWindow := s.sessionSendWindow - cost
        tierq := s.tierq.set r.tier
          (s.tierq[r.tier] ++ pieceFrames s.cfg sid (left = none && fin) sent)
        events := s.events ++ (if finished ∧ r.state = .halfClosedRemote
          then [.onStreamClosed sid .normal] else []) } ∧
      (left = some [] → min (r.sendWindow - cost) (s.sessionSendWindow - cost) < 0) ∧
      (∀ rem, left = some rem → rem ≠ [] → s.cfg.maxDataPayload.val ≠ 0 →
        min (r.sendWindow - cost) (s.sessionSendWindow - cost) ≤ 0)

/-- R244, first half: a write of `W + 1` bytes on a stream with window `W`, the transport blocked:
one DATA frame of the first `W` bytes without FIN waits in the tier queue, one byte waits for credit,
and the command returns `Pending`. -/
def Obligations.SendOneMoreThanWindow : Prop :=
  ∀ (s : State) (sid : StreamId) (bytes : Bytes) (fin : Bool) (rest : List Command) (r : Stream)
    (W : Nat),
    s.phase = .idle → s.inbox = .sendData sid bytes fin :: rest →
    s.mode = .active ∨ s.mode = .goingAway → s.txReady = false → s.pending = [] →
    tableGet s.streams sid = some r → r.state = .opened ∨ r.state = .halfClosedRemote →
    r.localFinQueued = false → r.sendWindow = W → 0 < W → W ≤ s.cfg.maxDataPayload.val →
    (W : Int) + 1 ≤ s.sessionSendWindow → bytes.length = W + 1 →
    step s = .next { s with
      inbox := rest
      streams := tablePut s.streams sid { r with sendWindow := 0, localFinQueued := fin }
      sessionSendWindow := s.sessionSendWindow - W
      tierq := s.tierq.set r.tier (s.tierq[r.tier] ++ [(sid, .data sid 0 (bytes.take W))])
      pending := [⟨sid, bytes.drop W, fin⟩]
      events := []
      tx := []
      trace := s.trace ++ [⟨.pending, s.events, s.tx⟩] }

/-- R244, second half: once the stream window is `k`, at least 1, exactly the one waiting byte becomes
a DATA frame, with FIN if the write asked for it, and the window is `k - 1`. With FIN this side is
finished (R196, R197): an open stream is half closed, and one whose peer had finished is removed with
`on_stream_closed(NORMAL)`. -/
def Obligations.OneByteReleased : Prop :=
  ∀ (s : State) (sid : StreamId) (b : Byte) (fin : Bool) (r : Stream) (k : Nat),
    tableGet s.streams sid = some r → r.state = .opened ∨ r.state = .halfClosedRemote →
    r.sendWindow = k → 0 < k →
    0 < s.cfg.maxDataPayload.val → 0 < s.sessionSendWindow → s.pending = [⟨sid, [b], fin⟩] →
    let completes := fin = true ∧ r.state = .halfClosedRemote
    drain s = { s with
      streams := if completes then tableErase s.streams sid
        else tablePut s.streams sid { r with
          sendWindow := k - 1
          state := if fin then .halfClosedLocal else r.state }
      sessionSendWindow := s.sessionSendWindow - 1
      tierq := s.tierq.set r.tier (s.tierq[r.tier] ++
        [(sid, .data sid (if fin then s.cfg.params.flagFin else 0) [b])])
      pending := []
      events := s.events ++ (if completes then [.onStreamClosed sid .normal] else []) }

/-- R315, R72, R220: with the transport ready, every waiting frame leaves as one `TxBytes` of its
encoding, urgent frames first, then tier by tier, first in first out; blocked, nothing leaves. -/
def Obligations.PumpSendsAll : Prop :=
  ∀ (s : State), (∀ f ∈ sendOrder s, Encodable s.cfg f) →
    (s.txReady = true → pump s = .next { s with
      urgent := []
      tierq := emptyQueues
      tx := s.tx ++ (sendOrder s).map (fun f => .txBytes (wireBytes s.cfg f)) }) ∧
    (s.txReady = false → pump s = .next s)

/-- R316: run twice in a row, the epilogue does the second time nothing. -/
def Obligations.EpilogueIdempotent : Prop :=
  ∀ (s t : State), epilogue s = .next t → epilogue t = .next t

/-- R316: after a peer's GOAWAY the session closes exactly when the table and everything that waits are
empty, by one `TxClose` and no event of its own; `S.goaway` stays. In `ACTIVE` it does not close. -/
def Obligations.GracefulTearDown : Prop :=
  ∀ (s t : State), epilogue s = .next t →
    (s.mode = .goingAway →
      t.goaway = s.goaway ∧ (t.mode = .closed ∨ t.mode = .goingAway) ∧
      (t.mode = .closed ↔
        t.streams = [] ∧ t.urgent = [] ∧ t.tierq = emptyQueues ∧ t.pending = []) ∧
      (t.mode = .closed → ∃ items, t.tx = items ++ [.txClose])) ∧
    (s.mode = .active → t.mode = .active) ∧
    (s.mode = .closed ∨ s.mode = .fault → t = s)

/-! ### The commands -/

/-- R347, R351: on a session that is over, every command but `Reset` returns `Err(SESSION_CLOSED)` and
changes nothing. -/
def Obligations.SessionOverRefuses : Prop :=
  ∀ (s : State) (c : Command) (rest : List Command),
    s.phase = .idle → s.inbox = c :: rest → s.mode = .closed ∨ s.mode = .fault →
    (∀ cfg, c ≠ .reset cfg) →
    step s = .next { s with
      inbox := rest
      events := []
      tx := []
      trace := s.trace ++ [⟨.err .sessionClosed, s.events, s.tx⟩] }

/-- R43, R370, R60: `Reset` is taken in every mode, returns `(Ok, [], [])`, leaves these values in every
field of `S`, and the transmit stream starts anew. The last three clauses are the model's own choice
(log entry 14): the commands still waiting, the traces of the runs before, and the count of draws are
kept. -/
def Obligations.ResetInstalls : Prop :=
  ∀ (s : State) (c : Cfg) (rest : List Command), s.phase = .idle → s.inbox = .reset c :: rest →
    ∃ t, step s = .next t ∧ t.cfg = c ∧ t.mode = .active ∧
      t.nextStreamId = (match c.role with | .client => 1 | .server => 2) ∧
      t.lastPeerId = 0 ∧ t.lastGoodPeerId = 0 ∧ t.goaway = .none ∧
      t.sessionSendWindow = c.sessionInitialWindow.val ∧
      t.sessionRecvWindow = c.sessionInitialWindow.val ∧
      t.peerInitialWindow = c.params.defaultInitialWindow ∧ t.peerMaxStreams = none ∧
      t.txReady = true ∧ t.rxBuf = [] ∧ t.rxOffset = 0 ∧ t.streams = [] ∧ t.urgent = [] ∧
      (∀ i : Fin 8, t.tierq[i] = []) ∧ t.pending = [] ∧
      t.trace = [⟨.ok, [], []⟩] ∧ t.phase = .idle ∧ t.events = [] ∧ t.tx = [] ∧
      transmitStream t = [] ∧
      t.inbox = rest ∧ t.earlier = s.earlier ++ s.trace ∧ t.draws = s.draws

/-- R260: `OnBytes` appends the chunk to the receive buffer and starts the loop. -/
def Obligations.OnBytesBuffers : Prop :=
  ∀ (s : State) (chunk : Bytes) (rest : List Command),
    s.phase = .idle → s.inbox = .onBytes chunk :: rest → s.mode ≠ .closed → s.mode ≠ .fault →
    step s = .next { s with inbox := rest, rxBuf := s.rxBuf ++ chunk, phase := .receiving }

/-- R300, R301: `OpenStream`. Its refusals change nothing; a tier out of range stops a debug build in
`FAULT` and is clamped in a release build; else the next local ID is opened at the tier, its SYN_STREAM
is queued, and the epilogue runs. -/
def Obligations.OpenStream : Prop :=
  ∀ (s : State) (priority : Nat) (hb : Bytes) (rest : List Command),
    s.phase = .idle → s.inbox = .openStream priority hb :: rest → s.mode ≠ .closed →
    s.mode ≠ .fault → TableInv s →
    let u : State := { s with inbox := rest }
    let n := nTiers s.cfg.version
    let exhausted := 0x7FFFFFFF < s.nextStreamId ∨ 0xFFFFFF < 10 + hb.length ∨
      ∃ m, s.peerMaxStreams = some m ∧ m.toNat ≤ countLocal s
    (∀ g, s.goaway = .received g → g.toNat < s.nextStreamId →
      step s = .next (ret (.err .goingAway) u)) ∧
    ((∀ g, s.goaway = .received g → s.nextStreamId ≤ g.toNat) →
      (n ≤ priority → s.cfg.build = .debug →
        step s = .next (ret (.fault .tierRange) { u with mode := .fault })) ∧
      (priority < n ∨ s.cfg.build = .release →
        (exhausted → step s = .next (ret (.err .resourceExhaustion) u)) ∧
        (¬ exhausted → ∀ (sid : StreamId) (tier : Fin 8), sid.toNat = s.nextStreamId →
          tier.val = min priority (n - 1) →
          step s = andThen (epilogue { u with
            nextStreamId := s.nextStreamId + 2
            streams := tablePut s.streams sid
              { state := .opened, tier := tier, sendWindow := s.peerInitialWindow.val,
                recvWindow := s.cfg.localInitialWindow.val, localFinQueued := false }
            tierq := s.tierq.set tier (s.tierq[tier] ++
              [(sid, .synStream (wireVersion s.cfg) 0 sid 0 tier hb)]) })
            fun t => .next (ret (.okId sid) t))))

/-- R302, R335: `SendData`. An unknown stream is refused; a send after one's own FIN is a stream error;
else the write joins the pending writes, the epilogue runs, and the result says whether any data of the
stream still waits. -/
def Obligations.SendData : Prop :=
  ∀ (s : State) (sid : StreamId) (bytes : Bytes) (fin : Bool) (rest : List Command),
    s.phase = .idle → s.inbox = .sendData sid bytes fin :: rest → s.mode ≠ .closed →
    s.mode ≠ .fault →
    let u : State := { s with inbox := rest }
    (tableGet s.streams sid = none → step s = .next (ret (.err .unknownStream) u)) ∧
    (∀ r, tableGet s.streams sid = some r →
      (r.state ≠ .opened ∧ r.state ≠ .halfClosedRemote) ∨ r.localFinQueued = true →
      step s = andThen (epilogue (afterStreamError sid s.cfg.params.rstProtocolError
          (.streamProtocolError .invalidTransition) u))
        fun t => .next (ret (.err .invalidTransition) t)) ∧
    (∀ r, tableGet s.streams sid = some r → r.state = .opened ∨ r.state = .halfClosedRemote →
      r.localFinQueued = false →
      step s = andThen (epilogue { u with
          pending := s.pending ++ [⟨sid, bytes, fin⟩]
          streams := if fin then tablePut s.streams sid { r with localFinQueued := true }
            else s.streams })
        fun t => .next (ret (if (∃ w ∈ t.pending, w.sid = sid) ∨
            (∃ q ∈ t.tierq.toList, ∃ e ∈ q, e.1 = sid ∧ e.2.controlType? = none)
          then .pending else .ok) t))

/-- R304, R343: `ResetStream`. An unknown stream is refused; else the stream error procedure runs with
the application's code, which goes into the RST_STREAM unchanged, then the epilogue. -/
def Obligations.ResetStream : Prop :=
  ∀ (s : State) (sid : StreamId) (code : Word32) (rest : List Command),
    s.phase = .idle → s.inbox = .resetStream sid code :: rest → s.mode ≠ .closed →
    s.mode ≠ .fault →
    let u : State := { s with inbox := rest }
    (tableGet s.streams sid = none → step s = .next (ret (.err .unknownStream) u)) ∧
    ((tableGet s.streams sid).isSome = true →
      step s = andThen (epilogue (afterStreamError sid code (.resetLocal code) u))
        fun t => .next (ret .ok t))

/-- R312, R346, R227: `Close`. Every stream is aborted in ascending ID, nothing that waits is sent, the
GOAWAY carries the application's status and `TxClose` follows it; there is no `on_goaway`. -/
def Obligations.Close : Prop :=
  ∀ (s : State) (status : Word32) (rest : List Command),
    s.phase = .idle → s.inbox = .close status :: rest → s.mode ≠ .closed → s.mode ≠ .fault →
    step s = .next (ret .ok (tornDown status
      ((tableKeys s.streams).map fun sid => .onStreamClosed sid .aborted)
      { s with inbox := rest }))

/-- R313, R314: the two transport signals set `tx_ready` and run the epilogue. -/
def Obligations.TransportSignals : Prop :=
  ∀ (s : State) (c : Command) (ready : Bool) (rest : List Command),
    (c = .transportBlocked ∧ ready = false ∨ c = .transportWritable ∧ ready = true) →
    s.phase = .idle → s.inbox = c :: rest → s.mode ≠ .closed → s.mode ≠ .fault →
    step s = andThen (epilogue { s with inbox := rest, txReady := ready })
      fun t => .next (ret .ok t)

/-! ### Invariants every step keeps, and whole-machine rules -/

/-- R38, R22, R23, R24: the stream table and the ID registers. -/
def Obligations.TableInvKept : Prop :=
  ∀ (s t : State), TableInv s → step s = .next t → TableInv t

/-- R27, R245: every window stays in its range, and the receive windows are full wherever the peer may
send. -/
def Obligations.WindowInvKept : Prop :=
  ∀ (s t : State), TableInv s → WindowInv s → step s = .next t → WindowInv t

/-- R178: every waiting frame becomes bytes. -/
def Obligations.QueueInvKept : Prop :=
  ∀ (s t : State), QueueInv s → step s = .next t → QueueInv t

/-- R21, R25, R29, R347: the mode, the GOAWAY status, the emptiness of a closed session, and what holds
between commands. -/
def Obligations.SessionInvKept : Prop :=
  ∀ (s t : State), SessionInv s → step s = .next t → SessionInv t

/-- R41: the pending writes. -/
def Obligations.PendingInvKept : Prop :=
  ∀ (s t : State), PendingInv s → step s = .next t → PendingInv t

/-- R73: all waiting frames of a stream are in the queue of its tier. -/
def Obligations.TierInvKept : Prop :=
  ∀ (s t : State), TableInv s → TierInv s → step s = .next t → TierInv t

/-- R36, R40: tiers are normalised; under the legacy revision queues 4 to 7 stay empty. -/
def Obligations.RevisionInvKept : Prop :=
  ∀ (s t : State), RevisionInv s → step s = .next t → RevisionInv t

/-- R43: the state after reset has every invariant, whatever the configuration. -/
def Obligations.InvariantsAtReset : Prop :=
  ∀ (c : Cfg), c.wf = true →
    TableInv (State.ofCfg c) ∧ WindowInv (State.ofCfg c) ∧ QueueInv (State.ofCfg c) ∧
    SessionInv (State.ofCfg c) ∧ PendingInv (State.ofCfg c) ∧ TierInv (State.ofCfg c) ∧
    RevisionInv (State.ofCfg c)

/-- R178, R379: the machine never stops: where every waiting frame is encodable, each step has a next
state. -/
def Obligations.StepNeverStops : Prop :=
  ∀ (s : State), QueueInv s → ∃ t, step s = .next t

/-- R351: the changes of mode a step other than `Reset` can make. -/
def Obligations.ModeChanges : Prop :=
  ∀ (s t : State), SessionInv s → resetsNext s = false → step s = .next t →
    t.mode = s.mode ∨
    (s.mode = .active ∧ (t.mode = .goingAway ∨ t.mode = .closed ∨ t.mode = .fault)) ∨
    (s.mode = .goingAway ∧ (t.mode = .closed ∨ t.mode = .fault))

/-- R38 (4): an ID that was used and is not in the table is never in the table again before `Reset`. -/
def Obligations.RemovedIdStaysRemoved : Prop :=
  ∀ (s t : State) (sid : StreamId), TableInv s → resetsNext s = false → step s = .next t →
    usedId s sid = true →
    usedId t sid = true ∧ (tableGet s.streams sid = none → tableGet t.streams sid = none)

/-- R339: a stream in the table gets exactly one `on_stream_closed` in the step that removes it and none
in a step that keeps it; a stream that is not in the table gets none. -/
def Obligations.ClosedExactlyOnce : Prop :=
  ∀ (s t : State) (sid : StreamId), TableInv s → resetsNext s = false → step s = .next t →
    (eventsSoFar t).countP (closes sid) = (eventsSoFar s).countP (closes sid) +
      (if (tableGet s.streams sid).isSome = true ∧ tableGet t.streams sid = none then 1 else 0)

/-- R338, R376: `TxClose` goes out in the step that closes the session, once, as the last item; and
after it, up to `Reset`, nothing more goes out. -/
def Obligations.TransportClosedOnce : Prop :=
  ∀ (s t : State), resetsNext s = false → step s = .next t →
    ∃ items, txSoFar t = txSoFar s ++ items ∧
      (s.mode = .closed → items = []) ∧
      (s.mode ≠ .closed → t.mode = .closed →
        ∃ before, items = before ++ [.txClose] ∧ .txClose ∉ before) ∧
      (t.mode ≠ .closed → .txClose ∉ items)

/-- R305, R239, R73: the walk of DRAIN over all pending writes. Each write is cut into pieces queued
and bytes left; a write behind one of its own stream that did not finish is not touched; nothing is
dropped and nothing overtakes: what waits afterwards are the unfinished writes in their order, and each
tier queue grows by the pieces of its streams' writes in their order, each byte paid for from the
session's window. So the DATA of a stream in its
queue followed by its pending bytes is the same before and after. Whatever is left has no credit at the
end of the pass, or waits behind an earlier write of its stream. A pending write whose stream is not in
the table does not occur (R41); that it queues nothing and is held back is the model's own choice (log
entry 9). -/
def Obligations.DrainKeepsEveryWrite : Prop :=
  ∀ (s : State),
    (∃ pass : List GateOutcome,
      pass.map (·.write) = s.pending ∧
      (∀ o ∈ pass, o.sent.flatten ++ o.left.getD [] = o.write.bytes ∧ (o.left = none → o.sent ≠ []) ∧
        (∀ b ∈ o.sent, b.length ≤ s.cfg.maxDataPayload.val) ∧
        (tableGet s.streams o.write.sid = none → o.sent = [])) ∧
      (pass.Pairwise fun a b => a.write.sid = b.write.sid → a.left ≠ none →
        b.sent = [] ∧ b.left = some b.write.bytes) ∧
      (drain s).pending = pass.filterMap GateOutcome.waits ∧
      (drain s).sessionSendWindow =
        s.sessionSendWindow - ((pass.flatMap (·.sent)).flatten.length : Nat) ∧
      (∀ i : Fin 8, (drain s).tierq[i] = s.tierq[i] ++ pass.flatMap fun o =>
        if (tableGet s.streams o.write.sid).map (·.tier) = some i
        then pieceFrames s.cfg o.write.sid (o.left = none && o.write.fin) o.sent else [])) ∧
    (∀ sid r, tableGet s.streams sid = some r →
      queuedPayload sid (drain s).tierq[r.tier] ++ pendingBytes sid (drain s).pending =
        queuedPayload sid s.tierq[r.tier] ++ pendingBytes sid s.pending) ∧
    (∀ before w after, (drain s).pending = before ++ w :: after →
      (∃ e ∈ before, e.sid = w.sid) ∨ avail w.sid (drain s) = none ∨
      ∃ a, avail w.sid (drain s) = some a ∧
        (w.bytes = [] → a < 0) ∧ (w.bytes ≠ [] → s.cfg.maxDataPayload.val ≠ 0 → a ≤ 0))

/-- R60 (2): the transmit stream is empty after a `Reset`, and every other step only appends to it. The
rest is about the model's own records (log entries 10 and 14), of which R60 and R375 say nothing: the
triples of the finished commands are only appended to, those of earlier runs are kept, and the step does
the same whatever the two records hold. The items of the command in progress, `tx`, are not varied. -/
def Obligations.TransmitStreamGrows : Prop :=
  ∀ (s t : State), step s = .next t →
    (resetsNext s = true → transmitStream t = []) ∧
    (resetsNext s = false → (∃ more, transmitStream t = transmitStream s ++ more) ∧
      ∃ new, t.trace = s.trace ++ new ∧ t.earlier = s.earlier ∧
        ∀ trace earlier, step { s with trace := trace, earlier := earlier } =
          .next { t with trace := trace ++ new, earlier := earlier })
end

