-- ==== Sys2Proof/Laws/Codec.lean ====
section
/-! SUPPORT. The big-endian reads and writes (R11), the fields they carry, and the conditions on the
constants (R9) as separate facts. -/

namespace Sys2Proof

/-! ### Big-endian bytes -/

theorem beValue_foldl (bs : Bytes) (acc : Nat) :
    bs.foldl (fun acc b => acc * 256 + b.toNat) acc = acc * 256 ^ bs.length + beValue bs := by
  induction bs generalizing acc with
  | nil => simp [beValue]
  | cons b bs ih =>
    simp only [beValue, List.foldl_cons, List.length_cons] at ih ⊢
    rw [ih, ih (0 * 256 + b.toNat)]
    ring

@[simp] theorem beValue_nil : beValue [] = 0 := rfl

theorem beValue_cons (b : Byte) (bs : Bytes) :
    beValue (b :: bs) = b.toNat * 256 ^ bs.length + beValue bs := by
  have := beValue_foldl bs (0 * 256 + b.toNat)
  simpa [beValue] using this

theorem beValue_append (a b : Bytes) :
    beValue (a ++ b) = beValue a * 256 ^ b.length + beValue b := by
  have := beValue_foldl b (beValue a)
  simpa [beValue, List.foldl_append] using this

/-- A big-endian value fits its bytes. -/
theorem beValue_lt (bs : Bytes) : beValue bs < 256 ^ bs.length := by
  induction bs with
  | nil => simp
  | cons b bs ih =>
    rw [beValue_cons, List.length_cons, pow_succ]
    have := b.isLt
    have : b.toNat + 1 ≤ 256 := by omega
    calc b.toNat * 256 ^ bs.length + beValue bs
        < b.toNat * 256 ^ bs.length + 256 ^ bs.length := by omega
      _ = (b.toNat + 1) * 256 ^ bs.length := by ring
      _ ≤ 256 * 256 ^ bs.length := Nat.mul_le_mul_right _ this
      _ = 256 ^ bs.length * 256 := by ring

@[simp] theorem beBytes_length (n v : Nat) : (beBytes n v).length = n := by
  induction n with
  | zero => rfl
  | succ n ih => simp [beBytes, ih]

/-- Reading back what was written (R11). -/
theorem beValue_beBytes (n v : Nat) : beValue (beBytes n v) = v % 256 ^ n := by
  induction n with
  | zero => simp [beBytes, Nat.mod_one]
  | succ n ih =>
    rw [beBytes, beValue_cons, ih, beBytes_length, BitVec.toNat_ofNat,
      show (2 : Nat) ^ 8 = 256 from by norm_num, pow_succ, Nat.mod_mul]
    ring

theorem beValue_beBytes_lt {n v : Nat} (h : v < 256 ^ n) : beValue (beBytes n v) = v := by
  rw [beValue_beBytes, Nat.mod_eq_of_lt h]

theorem beBytes_add_mul (n a v : Nat) : beBytes n (a * 256 ^ n + v) = beBytes n v := by
  have key : ∀ m, m ≤ n → beBytes m (a * 256 ^ n + v) = beBytes m v := by
    intro m hm
    induction m with
    | zero => rfl
    | succ m ih =>
      rw [beBytes, beBytes, ih (by omega)]
      congr 1
      obtain ⟨k, rfl⟩ : ∃ k, n = m + 1 + k := ⟨n - (m + 1), by omega⟩
      have e : a * 256 ^ (m + 1 + k) + v = v + 256 ^ m * (256 * (a * 256 ^ k)) := by ring
      rw [e, Nat.add_mul_div_left _ _ (by positivity)]
      apply BitVec.eq_of_toNat_eq
      simp [Nat.add_mul_mod_self_left]
  exact key n le_rfl

/-- Writing back what was read (R177). -/
theorem beBytes_beValue (bs : Bytes) : beBytes bs.length (beValue bs) = bs := by
  induction bs with
  | nil => rfl
  | cons b bs ih =>
    rw [List.length_cons, beBytes, beValue_cons]
    have h := beValue_lt bs
    congr 1
    · have : (b.toNat * 256 ^ bs.length + beValue bs) / 256 ^ bs.length = b.toNat := by
        rw [Nat.mul_comm, Nat.mul_add_div (by positivity), Nat.div_eq_of_lt h, Nat.add_zero]
      rw [this]
      simp
    · rw [beBytes_add_mul]; exact ih

/-! ### Reads of a frame buffer -/

/-- A read answers a value exactly when it stays inside the buffer (R140). -/
theorem memRead_eq_ok {F : Bytes} {off n v : Nat} :
    memRead F off n = .ok v ↔ off + n ≤ F.length ∧ beValue ((F.drop off).take n) = v := by
  unfold memRead
  split <;> simp_all

theorem memRead_of_le {F : Bytes} {off n : Nat} (h : off + n ≤ F.length) :
    memRead F off n = .ok (beValue ((F.drop off).take n)) := by
  simp [memRead, h]

/-- A read of a field at its place in a concatenation. -/
theorem memRead_at {A B C F : Bytes} {off n : Nat} (hF : F = A ++ (B ++ C)) (ho : off = A.length)
    (hn : n = B.length) : memRead F off n = .ok (beValue B) := by
  subst hF ho hn
  rw [memRead_of_le (by simp)]
  simp

/-- An in-bounds read is below `256 ^ n`. -/
theorem memRead_lt {F : Bytes} {off n v : Nat} (h : memRead F off n = .ok v) : v < 256 ^ n := by
  rw [memRead_eq_ok] at h
  obtain ⟨h1, rfl⟩ := h
  have := beValue_lt ((F.drop off).take n)
  simpa [List.length_take, List.length_drop, Nat.min_eq_left (by omega : n ≤ F.length - off)]
    using this

/-! ### The checked reads of R147 -/

/-- A stream ID is read exactly where its 32-bit word stands, high bit clear. -/
theorem readStreamId_eq_ok {F : Bytes} {off : Nat} {sid : StreamId} :
    readStreamId F off = .ok sid ↔ memRead F off 4 = .ok sid.toNat := by
  unfold readStreamId
  cases h : memRead F off 4 with
  | error e => simp [bind, Except.bind]
  | ok w =>
    have hw := memRead_lt h
    simp only [bind, Except.bind, Except.ok.injEq]
    by_cases hb : w.testBit 31 = true
    · simp only [hb, if_true, reduceCtorEq, false_iff]
      rintro rfl
      have := Nat.testBit_lt_two_pow sid.isLt
      rw [this] at hb; cases hb
    · have h31 : w < 2 ^ 31 := by
        by_contra hge
        exact hb (by
          rw [Nat.testBit, Nat.shiftRight_eq_div_pow]
          simp only [Nat.one_and_eq_mod_two, bne_iff_ne, ne_eq]
          omega)
      simp only [hb, Bool.false_eq_true, if_false, Except.ok.injEq]
      constructor
      · rintro rfl; simp only [BitVec.toNat_ofNat]; omega
      · rintro rfl; simp

/-- A window delta is read the same way; only the error differs. -/
theorem readDelta_eq_ok {F : Bytes} {off : Nat} {delta : BitVec 31} :
    readDelta F off = .ok delta ↔ memRead F off 4 = .ok delta.toNat := by
  rw [← readStreamId_eq_ok]
  unfold readDelta readStreamId
  cases memRead F off 4 with
  | error e => simp [bind, Except.bind]
  | ok w =>
    simp only [bind, Except.bind]
    by_cases hb : w.testBit 31 = true <;> simp [hb]

/-- A 32-bit word is read where it stands. -/
theorem readWord_eq_ok {F : Bytes} {off : Nat} {v : Word32} :
    readWord F off = .ok v ↔ memRead F off 4 = .ok v.toNat := by
  unfold readWord
  cases h : memRead F off 4 with
  | error e => simp [bind, Except.bind]
  | ok w =>
    have hw := memRead_lt h
    simp only [bind, Except.bind, Except.ok.injEq]
    constructor
    · rintro rfl; simp only [BitVec.toNat_ofNat]; omega
    · rintro rfl; simp

/-- A reserved byte is accepted exactly when it is 0. -/
theorem readZero_eq_ok {F : Bytes} {off : Nat} :
    readZero F off = .ok () ↔ memRead F off 1 = .ok 0 := by
  unfold readZero
  cases h : memRead F off 1 with
  | error e => simp [bind, Except.bind]
  | ok w =>
    simp only [bind, Except.bind, Except.ok.injEq]
    by_cases hw : w = 0 <;> simp [hw]

/-- A tier is read from a priority byte without a bit outside the mask. -/
theorem readTier_eq_ok {F : Bytes} {r : Revision} {off : Nat} {tier : Fin 8} :
    readTier F r off = .ok tier ↔ ∃ b : Byte, memRead F off 1 = .ok b.toNat ∧
      Machine.withinMask (Machine.priMask r) b = true ∧ Machine.tierOfByte r b = tier := by
  unfold readTier
  cases h : memRead F off 1 with
  | error e => simp [bind, Except.bind]
  | ok w =>
    have hw := memRead_lt h
    have hb : (BitVec.ofNat 8 w).toNat = w := by simp only [BitVec.toNat_ofNat]; omega
    simp only [bind, Except.bind, Except.ok.injEq]
    constructor
    · intro hh
      refine ⟨BitVec.ofNat 8 w, hb.symm, ?_⟩
      split at hh
      · rename_i hm; cases hh; exact ⟨hm, rfl⟩
      · cases hh
    · rintro ⟨b, rfl, hm, rfl⟩
      simp [hm]

/-! ### The conditions on the constants, one by one -/

theorem Params.wf_iff {p : Params} : p.wf = true ↔
    p.vLegacy ≠ p.vNewer ∧ (ControlType.all.map p.typeCode).Nodup ∧ p.flagFin ∈ singleBits ∧
    p.flagCompressed ∈ singleBits ∧ p.flagFin ≠ p.flagCompressed ∧
    p.dataFlagsMask = p.flagFin ||| p.flagCompressed ∧
    p.flagFin &&& p.controlFlagsMask = p.flagFin ∧
    [p.rstProtocolError, p.rstInvalidStream, p.rstRefusedStream, p.rstFlowControlError].Nodup := by
  simp only [Params.wf, Bool.and_eq_true, decide_eq_true_eq, and_assoc]

theorem Cfg.wf_iff {c : Cfg} :
    c.wf = true ↔ 8 ≤ c.rxBufMax ∧ 1 ≤ c.maxDataPayload.val ∧ c.params.wf = true := by
  simp only [Cfg.wf, Bool.and_eq_true, decide_eq_true_eq, and_assoc]

theorem Params.default_wf : Params.default.wf = true := by decide

theorem Cfg.default_wf : Cfg.default.wf = true := by decide

namespace Machine

/-- A revision's own tag is recognised as that revision (R94). -/
theorem revisionOf_versionTag {p : Params} (h : p.vLegacy ≠ p.vNewer) (r : Revision) :
    revisionOf p (versionTag p r) = some r := by
  cases r <;> simp [revisionOf, versionTag, Ne.symm h]

/-- Whatever the constants, a revision's tag is recognised. -/
theorem revisionOf_versionTag_isSome (p : Params) (r : Revision) :
    (revisionOf p (versionTag p r)).isSome = true := by
  cases r
  · simp [revisionOf, versionTag]
  · simp only [revisionOf, versionTag]; split <;> simp

theorem versionTag_of_revisionOf {p : Params} {ver : VersionTag} {r : Revision}
    (h : revisionOf p ver = some r) : versionTag p r = ver := by
  unfold revisionOf at h
  split at h
  · rename_i hv; cases h; exact hv.symm
  · split at h
    · rename_i hv; cases h; exact hv.symm
    · cases h

/-- A type code is recognised as its own type when the codes are distinct (R95). -/
theorem controlTypeOf_typeCode {p : Params} (h : (ControlType.all.map p.typeCode).Nodup)
    (k : ControlType) : controlTypeOf p (p.typeCode k) = some k := by
  simp only [ControlType.all, List.map_cons, List.map_nil, List.nodup_cons, List.mem_cons,
    not_or, List.not_mem_nil, not_false_eq_true, List.nodup_nil, and_true] at h
  unfold controlTypeOf
  cases k <;> simp_all [ControlType.all, List.find?]

theorem typeCode_of_controlTypeOf {p : Params} {typ : TypeCode} {k : ControlType}
    (h : controlTypeOf p typ = some k) : p.typeCode k = typ := by
  have := List.find?_some h
  simpa using this

/-- No flag set is legal under every mask. -/
@[simp] theorem withinMask_zero (mask : Byte) : withinMask mask 0#8 = true := by
  simp [withinMask]

/-- `FLAG_FIN` is a legal data flag (R98). -/
theorem withinMask_fin_data {p : Params} (h : p.wf = true) :
    withinMask p.dataFlagsMask p.flagFin = true := by
  have := (Params.wf_iff.1 h).2.2.2.2.2.1
  rw [withinMask, this]
  simp only [decide_eq_true_eq]
  generalize p.flagFin = a
  generalize p.flagCompressed = b
  ext i hi
  simp
  intro h1 h2
  simp_all

end Machine

end Sys2Proof
end

