-- ==== Sys2Proof/Laws/State.lean ====
section
/-! SUPPORT. One lemma per field per named update of the state, true by rfl, so that no proof unfolds a
record update. -/

namespace Sys2Proof.Machine

variable (s : State)

/-! ### emit -/

@[simp] theorem emit_mode (ev : Event) : (emit ev s).mode = s.mode := rfl
@[simp] theorem emit_nextStreamId (ev : Event) : (emit ev s).nextStreamId = s.nextStreamId := rfl
@[simp] theorem emit_lastPeerId (ev : Event) : (emit ev s).lastPeerId = s.lastPeerId := rfl
@[simp] theorem emit_lastGoodPeerId (ev : Event) : (emit ev s).lastGoodPeerId = s.lastGoodPeerId := rfl
@[simp] theorem emit_goaway (ev : Event) : (emit ev s).goaway = s.goaway := rfl
@[simp] theorem emit_sessionSendWindow (ev : Event) : (emit ev s).sessionSendWindow = s.sessionSendWindow := rfl
@[simp] theorem emit_sessionRecvWindow (ev : Event) : (emit ev s).sessionRecvWindow = s.sessionRecvWindow := rfl
@[simp] theorem emit_txReady (ev : Event) : (emit ev s).txReady = s.txReady := rfl
@[simp] theorem emit_rxBuf (ev : Event) : (emit ev s).rxBuf = s.rxBuf := rfl
@[simp] theorem emit_rxOffset (ev : Event) : (emit ev s).rxOffset = s.rxOffset := rfl
@[simp] theorem emit_cfg (ev : Event) : (emit ev s).cfg = s.cfg := rfl
@[simp] theorem emit_peerInitialWindow (ev : Event) : (emit ev s).peerInitialWindow = s.peerInitialWindow := rfl
@[simp] theorem emit_peerMaxStreams (ev : Event) : (emit ev s).peerMaxStreams = s.peerMaxStreams := rfl
@[simp] theorem emit_streams (ev : Event) : (emit ev s).streams = s.streams := rfl
@[simp] theorem emit_urgent (ev : Event) : (emit ev s).urgent = s.urgent := rfl
@[simp] theorem emit_tierq (ev : Event) : (emit ev s).tierq = s.tierq := rfl
@[simp] theorem emit_pending (ev : Event) : (emit ev s).pending = s.pending := rfl
@[simp] theorem emit_phase (ev : Event) : (emit ev s).phase = s.phase := rfl
@[simp] theorem emit_inbox (ev : Event) : (emit ev s).inbox = s.inbox := rfl
@[simp] theorem emit_events (ev : Event) : (emit ev s).events = s.events ++ [ev] := rfl
@[simp] theorem emit_tx (ev : Event) : (emit ev s).tx = s.tx := rfl
@[simp] theorem emit_trace (ev : Event) : (emit ev s).trace = s.trace := rfl
@[simp] theorem emit_earlier (ev : Event) : (emit ev s).earlier = s.earlier := rfl
@[simp] theorem emit_draws (ev : Event) : (emit ev s).draws = s.draws := rfl

/-! ### emitAll -/

@[simp] theorem emitAll_mode (evs : List Event) : (emitAll evs s).mode = s.mode := rfl
@[simp] theorem emitAll_nextStreamId (evs : List Event) : (emitAll evs s).nextStreamId = s.nextStreamId := rfl
@[simp] theorem emitAll_lastPeerId (evs : List Event) : (emitAll evs s).lastPeerId = s.lastPeerId := rfl
@[simp] theorem emitAll_lastGoodPeerId (evs : List Event) : (emitAll evs s).lastGoodPeerId = s.lastGoodPeerId := rfl
@[simp] theorem emitAll_goaway (evs : List Event) : (emitAll evs s).goaway = s.goaway := rfl
@[simp] theorem emitAll_sessionSendWindow (evs : List Event) : (emitAll evs s).sessionSendWindow = s.sessionSendWindow := rfl
@[simp] theorem emitAll_sessionRecvWindow (evs : List Event) : (emitAll evs s).sessionRecvWindow = s.sessionRecvWindow := rfl
@[simp] theorem emitAll_txReady (evs : List Event) : (emitAll evs s).txReady = s.txReady := rfl
@[simp] theorem emitAll_rxBuf (evs : List Event) : (emitAll evs s).rxBuf = s.rxBuf := rfl
@[simp] theorem emitAll_rxOffset (evs : List Event) : (emitAll evs s).rxOffset = s.rxOffset := rfl
@[simp] theorem emitAll_cfg (evs : List Event) : (emitAll evs s).cfg = s.cfg := rfl
@[simp] theorem emitAll_peerInitialWindow (evs : List Event) : (emitAll evs s).peerInitialWindow = s.peerInitialWindow := rfl
@[simp] theorem emitAll_peerMaxStreams (evs : List Event) : (emitAll evs s).peerMaxStreams = s.peerMaxStreams := rfl
@[simp] theorem emitAll_streams (evs : List Event) : (emitAll evs s).streams = s.streams := rfl
@[simp] theorem emitAll_urgent (evs : List Event) : (emitAll evs s).urgent = s.urgent := rfl
@[simp] theorem emitAll_tierq (evs : List Event) : (emitAll evs s).tierq = s.tierq := rfl
@[simp] theorem emitAll_pending (evs : List Event) : (emitAll evs s).pending = s.pending := rfl
@[simp] theorem emitAll_phase (evs : List Event) : (emitAll evs s).phase = s.phase := rfl
@[simp] theorem emitAll_inbox (evs : List Event) : (emitAll evs s).inbox = s.inbox := rfl
@[simp] theorem emitAll_events (evs : List Event) : (emitAll evs s).events = s.events ++ evs := rfl
@[simp] theorem emitAll_tx (evs : List Event) : (emitAll evs s).tx = s.tx := rfl
@[simp] theorem emitAll_trace (evs : List Event) : (emitAll evs s).trace = s.trace := rfl
@[simp] theorem emitAll_earlier (evs : List Event) : (emitAll evs s).earlier = s.earlier := rfl
@[simp] theorem emitAll_draws (evs : List Event) : (emitAll evs s).draws = s.draws := rfl

/-! ### txItem -/

@[simp] theorem txItem_mode (item : TxItem) : (txItem item s).mode = s.mode := rfl
@[simp] theorem txItem_nextStreamId (item : TxItem) : (txItem item s).nextStreamId = s.nextStreamId := rfl
@[simp] theorem txItem_lastPeerId (item : TxItem) : (txItem item s).lastPeerId = s.lastPeerId := rfl
@[simp] theorem txItem_lastGoodPeerId (item : TxItem) : (txItem item s).lastGoodPeerId = s.lastGoodPeerId := rfl
@[simp] theorem txItem_goaway (item : TxItem) : (txItem item s).goaway = s.goaway := rfl
@[simp] theorem txItem_sessionSendWindow (item : TxItem) : (txItem item s).sessionSendWindow = s.sessionSendWindow := rfl
@[simp] theorem txItem_sessionRecvWindow (item : TxItem) : (txItem item s).sessionRecvWindow = s.sessionRecvWindow := rfl
@[simp] theorem txItem_txReady (item : TxItem) : (txItem item s).txReady = s.txReady := rfl
@[simp] theorem txItem_rxBuf (item : TxItem) : (txItem item s).rxBuf = s.rxBuf := rfl
@[simp] theorem txItem_rxOffset (item : TxItem) : (txItem item s).rxOffset = s.rxOffset := rfl
@[simp] theorem txItem_cfg (item : TxItem) : (txItem item s).cfg = s.cfg := rfl
@[simp] theorem txItem_peerInitialWindow (item : TxItem) : (txItem item s).peerInitialWindow = s.peerInitialWindow := rfl
@[simp] theorem txItem_peerMaxStreams (item : TxItem) : (txItem item s).peerMaxStreams = s.peerMaxStreams := rfl
@[simp] theorem txItem_streams (item : TxItem) : (txItem item s).streams = s.streams := rfl
@[simp] theorem txItem_urgent (item : TxItem) : (txItem item s).urgent = s.urgent := rfl
@[simp] theorem txItem_tierq (item : TxItem) : (txItem item s).tierq = s.tierq := rfl
@[simp] theorem txItem_pending (item : TxItem) : (txItem item s).pending = s.pending := rfl
@[simp] theorem txItem_phase (item : TxItem) : (txItem item s).phase = s.phase := rfl
@[simp] theorem txItem_inbox (item : TxItem) : (txItem item s).inbox = s.inbox := rfl
@[simp] theorem txItem_events (item : TxItem) : (txItem item s).events = s.events := rfl
@[simp] theorem txItem_tx (item : TxItem) : (txItem item s).tx = s.tx ++ [item] := rfl
@[simp] theorem txItem_trace (item : TxItem) : (txItem item s).trace = s.trace := rfl
@[simp] theorem txItem_earlier (item : TxItem) : (txItem item s).earlier = s.earlier := rfl
@[simp] theorem txItem_draws (item : TxItem) : (txItem item s).draws = s.draws := rfl

/-! ### putStream -/

@[simp] theorem putStream_mode (sid : StreamId) (r : Stream) : (putStream sid r s).mode = s.mode := rfl
@[simp] theorem putStream_nextStreamId (sid : StreamId) (r : Stream) : (putStream sid r s).nextStreamId = s.nextStreamId := rfl
@[simp] theorem putStream_lastPeerId (sid : StreamId) (r : Stream) : (putStream sid r s).lastPeerId = s.lastPeerId := rfl
@[simp] theorem putStream_lastGoodPeerId (sid : StreamId) (r : Stream) : (putStream sid r s).lastGoodPeerId = s.lastGoodPeerId := rfl
@[simp] theorem putStream_goaway (sid : StreamId) (r : Stream) : (putStream sid r s).goaway = s.goaway := rfl
@[simp] theorem putStream_sessionSendWindow (sid : StreamId) (r : Stream) : (putStream sid r s).sessionSendWindow = s.sessionSendWindow := rfl
@[simp] theorem putStream_sessionRecvWindow (sid : StreamId) (r : Stream) : (putStream sid r s).sessionRecvWindow = s.sessionRecvWindow := rfl
@[simp] theorem putStream_txReady (sid : StreamId) (r : Stream) : (putStream sid r s).txReady = s.txReady := rfl
@[simp] theorem putStream_rxBuf (sid : StreamId) (r : Stream) : (putStream sid r s).rxBuf = s.rxBuf := rfl
@[simp] theorem putStream_rxOffset (sid : StreamId) (r : Stream) : (putStream sid r s).rxOffset = s.rxOffset := rfl
@[simp] theorem putStream_cfg (sid : StreamId) (r : Stream) : (putStream sid r s).cfg = s.cfg := rfl
@[simp] theorem putStream_peerInitialWindow (sid : StreamId) (r : Stream) : (putStream sid r s).peerInitialWindow = s.peerInitialWindow := rfl
@[simp] theorem putStream_peerMaxStreams (sid : StreamId) (r : Stream) : (putStream sid r s).peerMaxStreams = s.peerMaxStreams := rfl
@[simp] theorem putStream_streams (sid : StreamId) (r : Stream) : (putStream sid r s).streams = tablePut s.streams sid r := rfl
@[simp] theorem putStream_urgent (sid : StreamId) (r : Stream) : (putStream sid r s).urgent = s.urgent := rfl
@[simp] theorem putStream_tierq (sid : StreamId) (r : Stream) : (putStream sid r s).tierq = s.tierq := rfl
@[simp] theorem putStream_pending (sid : StreamId) (r : Stream) : (putStream sid r s).pending = s.pending := rfl
@[simp] theorem putStream_phase (sid : StreamId) (r : Stream) : (putStream sid r s).phase = s.phase := rfl
@[simp] theorem putStream_inbox (sid : StreamId) (r : Stream) : (putStream sid r s).inbox = s.inbox := rfl
@[simp] theorem putStream_events (sid : StreamId) (r : Stream) : (putStream sid r s).events = s.events := rfl
@[simp] theorem putStream_tx (sid : StreamId) (r : Stream) : (putStream sid r s).tx = s.tx := rfl
@[simp] theorem putStream_trace (sid : StreamId) (r : Stream) : (putStream sid r s).trace = s.trace := rfl
@[simp] theorem putStream_earlier (sid : StreamId) (r : Stream) : (putStream sid r s).earlier = s.earlier := rfl
@[simp] theorem putStream_draws (sid : StreamId) (r : Stream) : (putStream sid r s).draws = s.draws := rfl

/-! ### closeStream -/

@[simp] theorem closeStream_mode (sid : StreamId) : (closeStream sid s).mode = s.mode := rfl
@[simp] theorem closeStream_nextStreamId (sid : StreamId) : (closeStream sid s).nextStreamId = s.nextStreamId := rfl
@[simp] theorem closeStream_lastPeerId (sid : StreamId) : (closeStream sid s).lastPeerId = s.lastPeerId := rfl
@[simp] theorem closeStream_lastGoodPeerId (sid : StreamId) : (closeStream sid s).lastGoodPeerId = s.lastGoodPeerId := rfl
@[simp] theorem closeStream_goaway (sid : StreamId) : (closeStream sid s).goaway = s.goaway := rfl
@[simp] theorem closeStream_sessionSendWindow (sid : StreamId) : (closeStream sid s).sessionSendWindow = s.sessionSendWindow := rfl
@[simp] theorem closeStream_sessionRecvWindow (sid : StreamId) : (closeStream sid s).sessionRecvWindow = s.sessionRecvWindow := rfl
@[simp] theorem closeStream_txReady (sid : StreamId) : (closeStream sid s).txReady = s.txReady := rfl
@[simp] theorem closeStream_rxBuf (sid : StreamId) : (closeStream sid s).rxBuf = s.rxBuf := rfl
@[simp] theorem closeStream_rxOffset (sid : StreamId) : (closeStream sid s).rxOffset = s.rxOffset := rfl
@[simp] theorem closeStream_cfg (sid : StreamId) : (closeStream sid s).cfg = s.cfg := rfl
@[simp] theorem closeStream_peerInitialWindow (sid : StreamId) : (closeStream sid s).peerInitialWindow = s.peerInitialWindow := rfl
@[simp] theorem closeStream_peerMaxStreams (sid : StreamId) : (closeStream sid s).peerMaxStreams = s.peerMaxStreams := rfl
@[simp] theorem closeStream_streams (sid : StreamId) : (closeStream sid s).streams = tableErase s.streams sid := rfl
@[simp] theorem closeStream_urgent (sid : StreamId) : (closeStream sid s).urgent = s.urgent := rfl
@[simp] theorem closeStream_tierq (sid : StreamId) : (closeStream sid s).tierq = s.tierq := rfl
@[simp] theorem closeStream_pending (sid : StreamId) : (closeStream sid s).pending = s.pending := rfl
@[simp] theorem closeStream_phase (sid : StreamId) : (closeStream sid s).phase = s.phase := rfl
@[simp] theorem closeStream_inbox (sid : StreamId) : (closeStream sid s).inbox = s.inbox := rfl
@[simp] theorem closeStream_events (sid : StreamId) : (closeStream sid s).events = s.events := rfl
@[simp] theorem closeStream_tx (sid : StreamId) : (closeStream sid s).tx = s.tx := rfl
@[simp] theorem closeStream_trace (sid : StreamId) : (closeStream sid s).trace = s.trace := rfl
@[simp] theorem closeStream_earlier (sid : StreamId) : (closeStream sid s).earlier = s.earlier := rfl
@[simp] theorem closeStream_draws (sid : StreamId) : (closeStream sid s).draws = s.draws := rfl

/-! ### setQueue -/

@[simp] theorem setQueue_mode (t : Fin 8) (q : List QueueEntry) : (setQueue t q s).mode = s.mode := rfl
@[simp] theorem setQueue_nextStreamId (t : Fin 8) (q : List QueueEntry) : (setQueue t q s).nextStreamId = s.nextStreamId := rfl
@[simp] theorem setQueue_lastPeerId (t : Fin 8) (q : List QueueEntry) : (setQueue t q s).lastPeerId = s.lastPeerId := rfl
@[simp] theorem setQueue_lastGoodPeerId (t : Fin 8) (q : List QueueEntry) : (setQueue t q s).lastGoodPeerId = s.lastGoodPeerId := rfl
@[simp] theorem setQueue_goaway (t : Fin 8) (q : List QueueEntry) : (setQueue t q s).goaway = s.goaway := rfl
@[simp] theorem setQueue_sessionSendWindow (t : Fin 8) (q : List QueueEntry) : (setQueue t q s).sessionSendWindow = s.sessionSendWindow := rfl
@[simp] theorem setQueue_sessionRecvWindow (t : Fin 8) (q : List QueueEntry) : (setQueue t q s).sessionRecvWindow = s.sessionRecvWindow := rfl
@[simp] theorem setQueue_txReady (t : Fin 8) (q : List QueueEntry) : (setQueue t q s).txReady = s.txReady := rfl
@[simp] theorem setQueue_rxBuf (t : Fin 8) (q : List QueueEntry) : (setQueue t q s).rxBuf = s.rxBuf := rfl
@[simp] theorem setQueue_rxOffset (t : Fin 8) (q : List QueueEntry) : (setQueue t q s).rxOffset = s.rxOffset := rfl
@[simp] theorem setQueue_cfg (t : Fin 8) (q : List QueueEntry) : (setQueue t q s).cfg = s.cfg := rfl
@[simp] theorem setQueue_peerInitialWindow (t : Fin 8) (q : List QueueEntry) : (setQueue t q s).peerInitialWindow = s.peerInitialWindow := rfl
@[simp] theorem setQueue_peerMaxStreams (t : Fin 8) (q : List QueueEntry) : (setQueue t q s).peerMaxStreams = s.peerMaxStreams := rfl
@[simp] theorem setQueue_streams (t : Fin 8) (q : List QueueEntry) : (setQueue t q s).streams = s.streams := rfl
@[simp] theorem setQueue_urgent (t : Fin 8) (q : List QueueEntry) : (setQueue t q s).urgent = s.urgent := rfl
@[simp] theorem setQueue_tierq (t : Fin 8) (q : List QueueEntry) : (setQueue t q s).tierq = s.tierq.set t q := rfl
@[simp] theorem setQueue_pending (t : Fin 8) (q : List QueueEntry) : (setQueue t q s).pending = s.pending := rfl
@[simp] theorem setQueue_phase (t : Fin 8) (q : List QueueEntry) : (setQueue t q s).phase = s.phase := rfl
@[simp] theorem setQueue_inbox (t : Fin 8) (q : List QueueEntry) : (setQueue t q s).inbox = s.inbox := rfl
@[simp] theorem setQueue_events (t : Fin 8) (q : List QueueEntry) : (setQueue t q s).events = s.events := rfl
@[simp] theorem setQueue_tx (t : Fin 8) (q : List QueueEntry) : (setQueue t q s).tx = s.tx := rfl
@[simp] theorem setQueue_trace (t : Fin 8) (q : List QueueEntry) : (setQueue t q s).trace = s.trace := rfl
@[simp] theorem setQueue_earlier (t : Fin 8) (q : List QueueEntry) : (setQueue t q s).earlier = s.earlier := rfl
@[simp] theorem setQueue_draws (t : Fin 8) (q : List QueueEntry) : (setQueue t q s).draws = s.draws := rfl

/-! ### enqueueUrgent -/

@[simp] theorem enqueueUrgent_mode (f : Instr) : (enqueueUrgent f s).mode = s.mode := rfl
@[simp] theorem enqueueUrgent_nextStreamId (f : Instr) : (enqueueUrgent f s).nextStreamId = s.nextStreamId := rfl
@[simp] theorem enqueueUrgent_lastPeerId (f : Instr) : (enqueueUrgent f s).lastPeerId = s.lastPeerId := rfl
@[simp] theorem enqueueUrgent_lastGoodPeerId (f : Instr) : (enqueueUrgent f s).lastGoodPeerId = s.lastGoodPeerId := rfl
@[simp] theorem enqueueUrgent_goaway (f : Instr) : (enqueueUrgent f s).goaway = s.goaway := rfl
@[simp] theorem enqueueUrgent_sessionSendWindow (f : Instr) : (enqueueUrgent f s).sessionSendWindow = s.sessionSendWindow := rfl
@[simp] theorem enqueueUrgent_sessionRecvWindow (f : Instr) : (enqueueUrgent f s).sessionRecvWindow = s.sessionRecvWindow := rfl
@[simp] theorem enqueueUrgent_txReady (f : Instr) : (enqueueUrgent f s).txReady = s.txReady := rfl
@[simp] theorem enqueueUrgent_rxBuf (f : Instr) : (enqueueUrgent f s).rxBuf = s.rxBuf := rfl
@[simp] theorem enqueueUrgent_rxOffset (f : Instr) : (enqueueUrgent f s).rxOffset = s.rxOffset := rfl
@[simp] theorem enqueueUrgent_cfg (f : Instr) : (enqueueUrgent f s).cfg = s.cfg := rfl
@[simp] theorem enqueueUrgent_peerInitialWindow (f : Instr) : (enqueueUrgent f s).peerInitialWindow = s.peerInitialWindow := rfl
@[simp] theorem enqueueUrgent_peerMaxStreams (f : Instr) : (enqueueUrgent f s).peerMaxStreams = s.peerMaxStreams := rfl
@[simp] theorem enqueueUrgent_streams (f : Instr) : (enqueueUrgent f s).streams = s.streams := rfl
@[simp] theorem enqueueUrgent_urgent (f : Instr) : (enqueueUrgent f s).urgent = s.urgent ++ [f] := rfl
@[simp] theorem enqueueUrgent_tierq (f : Instr) : (enqueueUrgent f s).tierq = s.tierq := rfl
@[simp] theorem enqueueUrgent_pending (f : Instr) : (enqueueUrgent f s).pending = s.pending := rfl
@[simp] theorem enqueueUrgent_phase (f : Instr) : (enqueueUrgent f s).phase = s.phase := rfl
@[simp] theorem enqueueUrgent_inbox (f : Instr) : (enqueueUrgent f s).inbox = s.inbox := rfl
@[simp] theorem enqueueUrgent_events (f : Instr) : (enqueueUrgent f s).events = s.events := rfl
@[simp] theorem enqueueUrgent_tx (f : Instr) : (enqueueUrgent f s).tx = s.tx := rfl
@[simp] theorem enqueueUrgent_trace (f : Instr) : (enqueueUrgent f s).trace = s.trace := rfl
@[simp] theorem enqueueUrgent_earlier (f : Instr) : (enqueueUrgent f s).earlier = s.earlier := rfl
@[simp] theorem enqueueUrgent_draws (f : Instr) : (enqueueUrgent f s).draws = s.draws := rfl

/-! ### purge -/

@[simp] theorem purge_mode (sid : StreamId) : (purge sid s).mode = s.mode := rfl
@[simp] theorem purge_nextStreamId (sid : StreamId) : (purge sid s).nextStreamId = s.nextStreamId := rfl
@[simp] theorem purge_lastPeerId (sid : StreamId) : (purge sid s).lastPeerId = s.lastPeerId := rfl
@[simp] theorem purge_lastGoodPeerId (sid : StreamId) : (purge sid s).lastGoodPeerId = s.lastGoodPeerId := rfl
@[simp] theorem purge_goaway (sid : StreamId) : (purge sid s).goaway = s.goaway := rfl
@[simp] theorem purge_sessionSendWindow (sid : StreamId) : (purge sid s).sessionSendWindow = min maxWindow (s.sessionSendWindow + queuedDataBytes sid s.tierq) := rfl
@[simp] theorem purge_sessionRecvWindow (sid : StreamId) : (purge sid s).sessionRecvWindow = s.sessionRecvWindow := rfl
@[simp] theorem purge_txReady (sid : StreamId) : (purge sid s).txReady = s.txReady := rfl
@[simp] theorem purge_rxBuf (sid : StreamId) : (purge sid s).rxBuf = s.rxBuf := rfl
@[simp] theorem purge_rxOffset (sid : StreamId) : (purge sid s).rxOffset = s.rxOffset := rfl
@[simp] theorem purge_cfg (sid : StreamId) : (purge sid s).cfg = s.cfg := rfl
@[simp] theorem purge_peerInitialWindow (sid : StreamId) : (purge sid s).peerInitialWindow = s.peerInitialWindow := rfl
@[simp] theorem purge_peerMaxStreams (sid : StreamId) : (purge sid s).peerMaxStreams = s.peerMaxStreams := rfl
@[simp] theorem purge_streams (sid : StreamId) : (purge sid s).streams = s.streams := rfl
@[simp] theorem purge_urgent (sid : StreamId) : (purge sid s).urgent = s.urgent := rfl
@[simp] theorem purge_tierq (sid : StreamId) : (purge sid s).tierq = mapQueues (fun q => q.filter (fun e => decide (e.1 ≠ sid))) s.tierq := rfl
@[simp] theorem purge_pending (sid : StreamId) : (purge sid s).pending = s.pending.filter (fun e => decide (e.sid ≠ sid)) := rfl
@[simp] theorem purge_phase (sid : StreamId) : (purge sid s).phase = s.phase := rfl
@[simp] theorem purge_inbox (sid : StreamId) : (purge sid s).inbox = s.inbox := rfl
@[simp] theorem purge_events (sid : StreamId) : (purge sid s).events = s.events := rfl
@[simp] theorem purge_tx (sid : StreamId) : (purge sid s).tx = s.tx := rfl
@[simp] theorem purge_trace (sid : StreamId) : (purge sid s).trace = s.trace := rfl
@[simp] theorem purge_earlier (sid : StreamId) : (purge sid s).earlier = s.earlier := rfl
@[simp] theorem purge_draws (sid : StreamId) : (purge sid s).draws = s.draws := rfl

/-! ### discardAll -/

@[simp] theorem discardAll_mode : (discardAll s).mode = s.mode := rfl
@[simp] theorem discardAll_nextStreamId : (discardAll s).nextStreamId = s.nextStreamId := rfl
@[simp] theorem discardAll_lastPeerId : (discardAll s).lastPeerId = s.lastPeerId := rfl
@[simp] theorem discardAll_lastGoodPeerId : (discardAll s).lastGoodPeerId = s.lastGoodPeerId := rfl
@[simp] theorem discardAll_goaway : (discardAll s).goaway = s.goaway := rfl
@[simp] theorem discardAll_sessionSendWindow : (discardAll s).sessionSendWindow = s.sessionSendWindow := rfl
@[simp] theorem discardAll_sessionRecvWindow : (discardAll s).sessionRecvWindow = s.sessionRecvWindow := rfl
@[simp] theorem discardAll_txReady : (discardAll s).txReady = s.txReady := rfl
@[simp] theorem discardAll_rxBuf : (discardAll s).rxBuf = [] := rfl
@[simp] theorem discardAll_rxOffset : (discardAll s).rxOffset = s.rxOffset := rfl
@[simp] theorem discardAll_cfg : (discardAll s).cfg = s.cfg := rfl
@[simp] theorem discardAll_peerInitialWindow : (discardAll s).peerInitialWindow = s.peerInitialWindow := rfl
@[simp] theorem discardAll_peerMaxStreams : (discardAll s).peerMaxStreams = s.peerMaxStreams := rfl
@[simp] theorem discardAll_streams : (discardAll s).streams = [] := rfl
@[simp] theorem discardAll_urgent : (discardAll s).urgent = [] := rfl
@[simp] theorem discardAll_tierq : (discardAll s).tierq = emptyQueues := rfl
@[simp] theorem discardAll_pending : (discardAll s).pending = [] := rfl
@[simp] theorem discardAll_phase : (discardAll s).phase = s.phase := rfl
@[simp] theorem discardAll_inbox : (discardAll s).inbox = s.inbox := rfl
@[simp] theorem discardAll_events : (discardAll s).events = s.events := rfl
@[simp] theorem discardAll_tx : (discardAll s).tx = s.tx := rfl
@[simp] theorem discardAll_trace : (discardAll s).trace = s.trace := rfl
@[simp] theorem discardAll_earlier : (discardAll s).earlier = s.earlier := rfl
@[simp] theorem discardAll_draws : (discardAll s).draws = s.draws := rfl

/-! ### bareRst -/

@[simp] theorem bareRst_mode (sid : StreamId) (status : Word32) : (bareRst sid status s).mode = s.mode := rfl
@[simp] theorem bareRst_nextStreamId (sid : StreamId) (status : Word32) : (bareRst sid status s).nextStreamId = s.nextStreamId := rfl
@[simp] theorem bareRst_lastPeerId (sid : StreamId) (status : Word32) : (bareRst sid status s).lastPeerId = s.lastPeerId := rfl
@[simp] theorem bareRst_lastGoodPeerId (sid : StreamId) (status : Word32) : (bareRst sid status s).lastGoodPeerId = s.lastGoodPeerId := rfl
@[simp] theorem bareRst_goaway (sid : StreamId) (status : Word32) : (bareRst sid status s).goaway = s.goaway := rfl
@[simp] theorem bareRst_sessionSendWindow (sid : StreamId) (status : Word32) : (bareRst sid status s).sessionSendWindow = s.sessionSendWindow := rfl
@[simp] theorem bareRst_sessionRecvWindow (sid : StreamId) (status : Word32) : (bareRst sid status s).sessionRecvWindow = s.sessionRecvWindow := rfl
@[simp] theorem bareRst_txReady (sid : StreamId) (status : Word32) : (bareRst sid status s).txReady = s.txReady := rfl
@[simp] theorem bareRst_rxBuf (sid : StreamId) (status : Word32) : (bareRst sid status s).rxBuf = s.rxBuf := rfl
@[simp] theorem bareRst_rxOffset (sid : StreamId) (status : Word32) : (bareRst sid status s).rxOffset = s.rxOffset := rfl
@[simp] theorem bareRst_cfg (sid : StreamId) (status : Word32) : (bareRst sid status s).cfg = s.cfg := rfl
@[simp] theorem bareRst_peerInitialWindow (sid : StreamId) (status : Word32) : (bareRst sid status s).peerInitialWindow = s.peerInitialWindow := rfl
@[simp] theorem bareRst_peerMaxStreams (sid : StreamId) (status : Word32) : (bareRst sid status s).peerMaxStreams = s.peerMaxStreams := rfl
@[simp] theorem bareRst_streams (sid : StreamId) (status : Word32) : (bareRst sid status s).streams = s.streams := rfl
@[simp] theorem bareRst_urgent (sid : StreamId) (status : Word32) : (bareRst sid status s).urgent = s.urgent ++ [.rstStream (wireVersion s.cfg) 0 sid status] := rfl
@[simp] theorem bareRst_tierq (sid : StreamId) (status : Word32) : (bareRst sid status s).tierq = s.tierq := rfl
@[simp] theorem bareRst_pending (sid : StreamId) (status : Word32) : (bareRst sid status s).pending = s.pending := rfl
@[simp] theorem bareRst_phase (sid : StreamId) (status : Word32) : (bareRst sid status s).phase = s.phase := rfl
@[simp] theorem bareRst_inbox (sid : StreamId) (status : Word32) : (bareRst sid status s).inbox = s.inbox := rfl
@[simp] theorem bareRst_events (sid : StreamId) (status : Word32) : (bareRst sid status s).events = s.events := rfl
@[simp] theorem bareRst_tx (sid : StreamId) (status : Word32) : (bareRst sid status s).tx = s.tx := rfl
@[simp] theorem bareRst_trace (sid : StreamId) (status : Word32) : (bareRst sid status s).trace = s.trace := rfl
@[simp] theorem bareRst_earlier (sid : StreamId) (status : Word32) : (bareRst sid status s).earlier = s.earlier := rfl
@[simp] theorem bareRst_draws (sid : StreamId) (status : Word32) : (bareRst sid status s).draws = s.draws := rfl

/-! ### markClosed -/

@[simp] theorem markClosed_mode : (markClosed s).mode = .closed := rfl
@[simp] theorem markClosed_nextStreamId : (markClosed s).nextStreamId = s.nextStreamId := rfl
@[simp] theorem markClosed_lastPeerId : (markClosed s).lastPeerId = s.lastPeerId := rfl
@[simp] theorem markClosed_lastGoodPeerId : (markClosed s).lastGoodPeerId = s.lastGoodPeerId := rfl
@[simp] theorem markClosed_goaway : (markClosed s).goaway = .sent := rfl
@[simp] theorem markClosed_sessionSendWindow : (markClosed s).sessionSendWindow = s.sessionSendWindow := rfl
@[simp] theorem markClosed_sessionRecvWindow : (markClosed s).sessionRecvWindow = s.sessionRecvWindow := rfl
@[simp] theorem markClosed_txReady : (markClosed s).txReady = s.txReady := rfl
@[simp] theorem markClosed_rxBuf : (markClosed s).rxBuf = s.rxBuf := rfl
@[simp] theorem markClosed_rxOffset : (markClosed s).rxOffset = s.rxOffset := rfl
@[simp] theorem markClosed_cfg : (markClosed s).cfg = s.cfg := rfl
@[simp] theorem markClosed_peerInitialWindow : (markClosed s).peerInitialWindow = s.peerInitialWindow := rfl
@[simp] theorem markClosed_peerMaxStreams : (markClosed s).peerMaxStreams = s.peerMaxStreams := rfl
@[simp] theorem markClosed_streams : (markClosed s).streams = s.streams := rfl
@[simp] theorem markClosed_urgent : (markClosed s).urgent = s.urgent := rfl
@[simp] theorem markClosed_tierq : (markClosed s).tierq = s.tierq := rfl
@[simp] theorem markClosed_pending : (markClosed s).pending = s.pending := rfl
@[simp] theorem markClosed_phase : (markClosed s).phase = s.phase := rfl
@[simp] theorem markClosed_inbox : (markClosed s).inbox = s.inbox := rfl
@[simp] theorem markClosed_events : (markClosed s).events = s.events := rfl
@[simp] theorem markClosed_tx : (markClosed s).tx = s.tx ++ [.txClose] := rfl
@[simp] theorem markClosed_trace : (markClosed s).trace = s.trace := rfl
@[simp] theorem markClosed_earlier : (markClosed s).earlier = s.earlier := rfl
@[simp] theorem markClosed_draws : (markClosed s).draws = s.draws := rfl

/-! ### debitRecv -/

@[simp] theorem debitRecv_mode (sid : StreamId) (r : Stream) (n : Nat) : (debitRecv sid r n s).mode = s.mode := rfl
@[simp] theorem debitRecv_nextStreamId (sid : StreamId) (r : Stream) (n : Nat) : (debitRecv sid r n s).nextStreamId = s.nextStreamId := rfl
@[simp] theorem debitRecv_lastPeerId (sid : StreamId) (r : Stream) (n : Nat) : (debitRecv sid r n s).lastPeerId = s.lastPeerId := rfl
@[simp] theorem debitRecv_lastGoodPeerId (sid : StreamId) (r : Stream) (n : Nat) : (debitRecv sid r n s).lastGoodPeerId = s.lastGoodPeerId := rfl
@[simp] theorem debitRecv_goaway (sid : StreamId) (r : Stream) (n : Nat) : (debitRecv sid r n s).goaway = s.goaway := rfl
@[simp] theorem debitRecv_sessionSendWindow (sid : StreamId) (r : Stream) (n : Nat) : (debitRecv sid r n s).sessionSendWindow = s.sessionSendWindow := rfl
@[simp] theorem debitRecv_sessionRecvWindow (sid : StreamId) (r : Stream) (n : Nat) : (debitRecv sid r n s).sessionRecvWindow = s.sessionRecvWindow - n := rfl
@[simp] theorem debitRecv_txReady (sid : StreamId) (r : Stream) (n : Nat) : (debitRecv sid r n s).txReady = s.txReady := rfl
@[simp] theorem debitRecv_rxBuf (sid : StreamId) (r : Stream) (n : Nat) : (debitRecv sid r n s).rxBuf = s.rxBuf := rfl
@[simp] theorem debitRecv_rxOffset (sid : StreamId) (r : Stream) (n : Nat) : (debitRecv sid r n s).rxOffset = s.rxOffset := rfl
@[simp] theorem debitRecv_cfg (sid : StreamId) (r : Stream) (n : Nat) : (debitRecv sid r n s).cfg = s.cfg := rfl
@[simp] theorem debitRecv_peerInitialWindow (sid : StreamId) (r : Stream) (n : Nat) : (debitRecv sid r n s).peerInitialWindow = s.peerInitialWindow := rfl
@[simp] theorem debitRecv_peerMaxStreams (sid : StreamId) (r : Stream) (n : Nat) : (debitRecv sid r n s).peerMaxStreams = s.peerMaxStreams := rfl
@[simp] theorem debitRecv_streams (sid : StreamId) (r : Stream) (n : Nat) : (debitRecv sid r n s).streams = tablePut s.streams sid { r with recvWindow := r.recvWindow - n } := rfl
@[simp] theorem debitRecv_urgent (sid : StreamId) (r : Stream) (n : Nat) : (debitRecv sid r n s).urgent = s.urgent := rfl
@[simp] theorem debitRecv_tierq (sid : StreamId) (r : Stream) (n : Nat) : (debitRecv sid r n s).tierq = s.tierq := rfl
@[simp] theorem debitRecv_pending (sid : StreamId) (r : Stream) (n : Nat) : (debitRecv sid r n s).pending = s.pending := rfl
@[simp] theorem debitRecv_phase (sid : StreamId) (r : Stream) (n : Nat) : (debitRecv sid r n s).phase = s.phase := rfl
@[simp] theorem debitRecv_inbox (sid : StreamId) (r : Stream) (n : Nat) : (debitRecv sid r n s).inbox = s.inbox := rfl
@[simp] theorem debitRecv_events (sid : StreamId) (r : Stream) (n : Nat) : (debitRecv sid r n s).events = s.events := rfl
@[simp] theorem debitRecv_tx (sid : StreamId) (r : Stream) (n : Nat) : (debitRecv sid r n s).tx = s.tx := rfl
@[simp] theorem debitRecv_trace (sid : StreamId) (r : Stream) (n : Nat) : (debitRecv sid r n s).trace = s.trace := rfl
@[simp] theorem debitRecv_earlier (sid : StreamId) (r : Stream) (n : Nat) : (debitRecv sid r n s).earlier = s.earlier := rfl
@[simp] theorem debitRecv_draws (sid : StreamId) (r : Stream) (n : Nat) : (debitRecv sid r n s).draws = s.draws := rfl

/-! ### cutFrame -/

@[simp] theorem cutFrame_mode (total : Nat) : (cutFrame total s).mode = s.mode := rfl
@[simp] theorem cutFrame_nextStreamId (total : Nat) : (cutFrame total s).nextStreamId = s.nextStreamId := rfl
@[simp] theorem cutFrame_lastPeerId (total : Nat) : (cutFrame total s).lastPeerId = s.lastPeerId := rfl
@[simp] theorem cutFrame_lastGoodPeerId (total : Nat) : (cutFrame total s).lastGoodPeerId = s.lastGoodPeerId := rfl
@[simp] theorem cutFrame_goaway (total : Nat) : (cutFrame total s).goaway = s.goaway := rfl
@[simp] theorem cutFrame_sessionSendWindow (total : Nat) : (cutFrame total s).sessionSendWindow = s.sessionSendWindow := rfl
@[simp] theorem cutFrame_sessionRecvWindow (total : Nat) : (cutFrame total s).sessionRecvWindow = s.sessionRecvWindow := rfl
@[simp] theorem cutFrame_txReady (total : Nat) : (cutFrame total s).txReady = s.txReady := rfl
@[simp] theorem cutFrame_rxBuf (total : Nat) : (cutFrame total s).rxBuf = s.rxBuf.drop total := rfl
@[simp] theorem cutFrame_rxOffset (total : Nat) : (cutFrame total s).rxOffset = s.rxOffset + total := rfl
@[simp] theorem cutFrame_cfg (total : Nat) : (cutFrame total s).cfg = s.cfg := rfl
@[simp] theorem cutFrame_peerInitialWindow (total : Nat) : (cutFrame total s).peerInitialWindow = s.peerInitialWindow := rfl
@[simp] theorem cutFrame_peerMaxStreams (total : Nat) : (cutFrame total s).peerMaxStreams = s.peerMaxStreams := rfl
@[simp] theorem cutFrame_streams (total : Nat) : (cutFrame total s).streams = s.streams := rfl
@[simp] theorem cutFrame_urgent (total : Nat) : (cutFrame total s).urgent = s.urgent := rfl
@[simp] theorem cutFrame_tierq (total : Nat) : (cutFrame total s).tierq = s.tierq := rfl
@[simp] theorem cutFrame_pending (total : Nat) : (cutFrame total s).pending = s.pending := rfl
@[simp] theorem cutFrame_phase (total : Nat) : (cutFrame total s).phase = s.phase := rfl
@[simp] theorem cutFrame_inbox (total : Nat) : (cutFrame total s).inbox = s.inbox := rfl
@[simp] theorem cutFrame_events (total : Nat) : (cutFrame total s).events = s.events := rfl
@[simp] theorem cutFrame_tx (total : Nat) : (cutFrame total s).tx = s.tx := rfl
@[simp] theorem cutFrame_trace (total : Nat) : (cutFrame total s).trace = s.trace := rfl
@[simp] theorem cutFrame_earlier (total : Nat) : (cutFrame total s).earlier = s.earlier := rfl
@[simp] theorem cutFrame_draws (total : Nat) : (cutFrame total s).draws = s.draws := rfl

/-! ### ret -/

@[simp] theorem ret_mode (result : Result) : (ret result s).mode = s.mode := rfl
@[simp] theorem ret_nextStreamId (result : Result) : (ret result s).nextStreamId = s.nextStreamId := rfl
@[simp] theorem ret_lastPeerId (result : Result) : (ret result s).lastPeerId = s.lastPeerId := rfl
@[simp] theorem ret_lastGoodPeerId (result : Result) : (ret result s).lastGoodPeerId = s.lastGoodPeerId := rfl
@[simp] theorem ret_goaway (result : Result) : (ret result s).goaway = s.goaway := rfl
@[simp] theorem ret_sessionSendWindow (result : Result) : (ret result s).sessionSendWindow = s.sessionSendWindow := rfl
@[simp] theorem ret_sessionRecvWindow (result : Result) : (ret result s).sessionRecvWindow = s.sessionRecvWindow := rfl
@[simp] theorem ret_txReady (result : Result) : (ret result s).txReady = s.txReady := rfl
@[simp] theorem ret_rxBuf (result : Result) : (ret result s).rxBuf = s.rxBuf := rfl
@[simp] theorem ret_rxOffset (result : Result) : (ret result s).rxOffset = s.rxOffset := rfl
@[simp] theorem ret_cfg (result : Result) : (ret result s).cfg = s.cfg := rfl
@[simp] theorem ret_peerInitialWindow (result : Result) : (ret result s).peerInitialWindow = s.peerInitialWindow := rfl
@[simp] theorem ret_peerMaxStreams (result : Result) : (ret result s).peerMaxStreams = s.peerMaxStreams := rfl
@[simp] theorem ret_streams (result : Result) : (ret result s).streams = s.streams := rfl
@[simp] theorem ret_urgent (result : Result) : (ret result s).urgent = s.urgent := rfl
@[simp] theorem ret_tierq (result : Result) : (ret result s).tierq = s.tierq := rfl
@[simp] theorem ret_pending (result : Result) : (ret result s).pending = s.pending := rfl
@[simp] theorem ret_phase (result : Result) : (ret result s).phase = .idle := rfl
@[simp] theorem ret_inbox (result : Result) : (ret result s).inbox = s.inbox := rfl
@[simp] theorem ret_events (result : Result) : (ret result s).events = [] := rfl
@[simp] theorem ret_tx (result : Result) : (ret result s).tx = [] := rfl
@[simp] theorem ret_trace (result : Result) : (ret result s).trace = s.trace ++ [⟨result, s.events, s.tx⟩] := rfl
@[simp] theorem ret_earlier (result : Result) : (ret result s).earlier = s.earlier := rfl
@[simp] theorem ret_draws (result : Result) : (ret result s).draws = s.draws := rfl

end Sys2Proof.Machine
end

