-- ==== Sys2Proof/Laws/Table.lean ====
section
/-! SUPPORT. The stream table as a finite map: what a lookup sees after each table operation, and that
every operation keeps the canonical form (`tableWf`). -/

namespace Sys2Proof.Machine

/-! ### What a lookup sees -/

@[simp] theorem tableGet_nil (sid : StreamId) : tableGet [] sid = none := rfl

theorem tableGet_cons (k : StreamId) (r : Stream) (T : StreamTable) (sid : StreamId) :
    tableGet ((k, r) :: T) sid = if k = sid then some r else tableGet T sid := rfl

/-- A lookup after a write (R193): the written record under its own key, else as before. -/
theorem tableGet_put (T : StreamTable) (sid : StreamId) (r : Stream) (k : StreamId) :
    tableGet (tablePut T sid r) k = if sid = k then some r else tableGet T k := by
  induction T with
  | nil => simp [tablePut, tableGet]
  | cons e T ih =>
    obtain ⟨key, q⟩ := e
    simp only [tablePut]
    split
    · rename_i h; subst h
      by_cases hk : key = k <;> simp [tableGet, hk]
    · rename_i h
      split
      · by_cases hk : sid = k <;> simp [tableGet, hk]
      · simp only [tableGet, ih]
        by_cases hk : sid = k
        · subst hk; simp [h]
        · simp [hk]

@[simp] theorem tableGet_put_self (T : StreamTable) (sid : StreamId) (r : Stream) :
    tableGet (tablePut T sid r) sid = some r := by simp [tableGet_put]

theorem tableGet_put_ne (T : StreamTable) {sid k : StreamId} (r : Stream) (h : sid ≠ k) :
    tableGet (tablePut T sid r) k = tableGet T k := by simp [tableGet_put, h]

/-- A lookup after a removal (R197). -/
theorem tableGet_erase (T : StreamTable) (sid k : StreamId) :
    tableGet (tableErase T sid) k = if sid = k then none else tableGet T k := by
  induction T with
  | nil => simp [tableErase, tableGet]
  | cons e T ih =>
    obtain ⟨key, q⟩ := e
    simp only [tableErase] at ih ⊢
    by_cases hk : key = sid
    · subst hk
      simp only [List.filter_cons, ne_eq, not_true_eq_false, decide_false, Bool.false_eq_true,
        if_false, ih, tableGet]
      split <;> rfl
    · by_cases h2 : sid = k
      · subst h2; simpa [List.filter_cons, hk, tableGet] using ih
      · simp only [List.filter_cons, ne_eq, hk, not_false_eq_true, decide_true, if_true, tableGet,
          ih, h2, if_false]

@[simp] theorem tableGet_erase_self (T : StreamTable) (sid : StreamId) :
    tableGet (tableErase T sid) sid = none := by simp [tableGet_erase]

theorem tableGet_erase_ne (T : StreamTable) {sid k : StreamId} (h : sid ≠ k) :
    tableGet (tableErase T sid) k = tableGet T k := by simp [tableGet_erase, h]

/-- A lookup after a change of every record (R240). -/
theorem tableGet_map (g : Stream → Stream) (T : StreamTable) (sid : StreamId) :
    tableGet (tableMap g T) sid = (tableGet T sid).map g := by
  induction T with
  | nil => rfl
  | cons e T ih =>
    obtain ⟨key, q⟩ := e
    simp only [tableMap, List.map_cons, tableGet] at ih ⊢
    split <;> simp [ih]

/-! ### Membership -/

theorem mem_of_tableGet {T : StreamTable} {sid : StreamId} {r : Stream}
    (h : tableGet T sid = some r) : (sid, r) ∈ T := by
  induction T with
  | nil => simp at h
  | cons e T ih =>
    obtain ⟨key, q⟩ := e
    simp only [tableGet] at h
    split at h
    · rename_i hk; subst hk; simp_all
    · exact List.mem_cons_of_mem _ (ih h)

theorem tableGet_eq_none_iff {T : StreamTable} {sid : StreamId} :
    tableGet T sid = none ↔ ∀ e ∈ T, e.1 ≠ sid := by
  induction T with
  | nil => simp
  | cons e T ih =>
    obtain ⟨key, q⟩ := e
    simp only [tableGet, List.mem_cons, forall_eq_or_imp]
    split
    · rename_i h; simp [h]
    · rename_i h; simp [ih, h]

theorem mem_tablePut {T : StreamTable} {sid : StreamId} {r : Stream} {e : StreamId × Stream}
    (h : e ∈ tablePut T sid r) : e = (sid, r) ∨ e ∈ T := by
  induction T with
  | nil => simpa [tablePut] using h
  | cons x T ih =>
    obtain ⟨key, q⟩ := x
    simp only [tablePut] at h
    split at h
    · simp only [List.mem_cons] at h ⊢; tauto
    · split at h
      · simp only [List.mem_cons] at h ⊢; tauto
      · simp only [List.mem_cons] at h ⊢
        rcases h with h | h
        · exact .inr (.inl h)
        · rcases ih h with h | h <;> tauto

theorem mem_tableErase {T : StreamTable} {sid : StreamId} {e : StreamId × Stream} :
    e ∈ tableErase T sid ↔ e ∈ T ∧ e.1 ≠ sid := by
  simp [tableErase]

theorem mem_tableMap {g : Stream → Stream} {T : StreamTable} {e : StreamId × Stream} :
    e ∈ tableMap g T ↔ ∃ r, (e.1, r) ∈ T ∧ g r = e.2 := by
  obtain ⟨k, q⟩ := e
  simp [tableMap]

/-! ### The canonical form -/

theorem tableWf_iff {T : StreamTable} :
    tableWf T = true ↔ (T.map (fun e => e.1.toNat)).Pairwise (· < ·) := by
  simp [tableWf]

theorem tableWf_nil : tableWf [] = true := by decide

theorem tableWf_cons {k : StreamId} {r : Stream} {T : StreamTable} :
    tableWf ((k, r) :: T) = true ↔ (∀ e ∈ T, k.toNat < e.1.toNat) ∧ tableWf T = true := by
  simp only [tableWf_iff, List.map_cons, List.pairwise_cons, List.mem_map, forall_exists_index,
    and_imp, forall_apply_eq_imp_iff₂]

/-- A write keeps the canonical form. -/
theorem tableWf_put {T : StreamTable} (sid : StreamId) (r : Stream) (h : tableWf T = true) :
    tableWf (tablePut T sid r) = true := by
  induction T with
  | nil => simp [tablePut, tableWf_cons, tableWf_nil]
  | cons e T ih =>
    obtain ⟨key, q⟩ := e
    rw [tableWf_cons] at h
    simp only [tablePut]
    split
    · rename_i hk; subst hk; exact tableWf_cons.2 h
    · rename_i hk
      split
      · rename_i hlt
        refine tableWf_cons.2 ⟨?_, tableWf_cons.2 h⟩
        intro e he
        rcases List.mem_cons.1 he with rfl | he
        · exact hlt
        · exact hlt.trans (h.1 e he)
      · rename_i hlt
        refine tableWf_cons.2 ⟨?_, ih h.2⟩
        intro e he
        rcases mem_tablePut he with rfl | he
        · have : key.toNat ≠ sid.toNat := fun hh => hk (BitVec.eq_of_toNat_eq hh)
          simp only; omega
        · exact h.1 e he

/-- A removal keeps the canonical form. -/
theorem tableWf_erase {T : StreamTable} (sid : StreamId) (h : tableWf T = true) :
    tableWf (tableErase T sid) = true := by
  rw [tableWf_iff] at h ⊢
  exact h.sublist ((List.filter_sublist).map _)

/-- A change of every record keeps the canonical form. -/
theorem tableWf_map {T : StreamTable} (g : Stream → Stream) (h : tableWf T = true) :
    tableWf (tableMap g T) = true := by
  rw [tableWf_iff] at h ⊢
  simpa [tableMap, Function.comp_def] using h

/-- In canonical form a key occurs once, so membership is lookup. -/
theorem tableGet_of_mem {T : StreamTable} (h : tableWf T = true) {sid : StreamId} {r : Stream}
    (hm : (sid, r) ∈ T) : tableGet T sid = some r := by
  induction T with
  | nil => simp at hm
  | cons e T ih =>
    obtain ⟨key, q⟩ := e
    rw [tableWf_cons] at h
    simp only [List.mem_cons, Prod.mk.injEq] at hm
    rcases hm with ⟨rfl, rfl⟩ | hm
    · simp [tableGet]
    · have hlt := h.1 _ hm
      have : key ≠ sid := by rintro rfl; exact absurd hlt (by simp)
      simp [tableGet, this, ih h.2 hm]

/-- In canonical form, writing back the record that is there changes nothing. -/
theorem tablePut_self {T : StreamTable} (h : tableWf T = true) {sid : StreamId} {r : Stream}
    (hg : tableGet T sid = some r) : tablePut T sid r = T := by
  induction T with
  | nil => simp at hg
  | cons e T ih =>
    obtain ⟨key, q⟩ := e
    rw [tableWf_cons] at h
    simp only [tableGet] at hg
    simp only [tablePut]
    split
    · rename_i hk; subst hk; simp_all
    · rename_i hk
      rw [if_neg hk] at hg
      have hlt := h.1 _ (mem_of_tableGet hg)
      simp only at hlt
      rw [if_neg (by omega), ih h.2 hg]

/-- The last of two writes to one key counts. -/
theorem tablePut_put (T : StreamTable) (sid : StreamId) (r q : Stream) :
    tablePut (tablePut T sid r) sid q = tablePut T sid q := by
  induction T with
  | nil => simp [tablePut]
  | cons e T ih =>
    obtain ⟨key, x⟩ := e
    simp only [tablePut]
    split
    · simp [tablePut]
    · rename_i hk
      split
      · simp [tablePut]
      · rename_i hlt; simp [tablePut, hk, hlt, ih]

/-- Writing a record and removing it leaves the table without the key. -/
theorem tableErase_put (T : StreamTable) (sid : StreamId) (r : Stream) :
    tableErase (tablePut T sid r) sid = tableErase T sid := by
  induction T with
  | nil => simp [tablePut, tableErase]
  | cons e T ih =>
    obtain ⟨key, q⟩ := e
    simp only [tablePut]
    split
    · rename_i h; subst h; simp [tableErase]
    · split
      · simp [tableErase]
      · simp only [tableErase, List.filter_cons] at ih ⊢
        rw [ih]

/-- Removing a key that is not there changes nothing. -/
theorem tableErase_of_none {T : StreamTable} {sid : StreamId} (h : tableGet T sid = none) :
    tableErase T sid = T := by
  rw [tableGet_eq_none_iff] at h
  simp only [tableErase, List.filter_eq_self]
  intro e he
  simp [h e he]

/-- Two canonical tables with the same lookups are the same list. -/
theorem tableWf_ext {T U : StreamTable} (hT : tableWf T = true) (hU : tableWf U = true)
    (h : ∀ sid, tableGet T sid = tableGet U sid) : T = U := by
  have hp : T.Perm U := by
    rw [List.perm_ext_iff_of_nodup]
    · rintro ⟨k, r⟩
      exact ⟨fun hm => mem_of_tableGet ((h k).symm.trans (tableGet_of_mem hT hm)),
        fun hm => mem_of_tableGet ((h k).trans (tableGet_of_mem hU hm))⟩
    · exact (List.Pairwise.imp (fun h => Nat.ne_of_lt h) (tableWf_iff.1 hT)).of_map _
        (fun a b hab hh => hab (congrArg (fun e => e.1.toNat) hh))
    · exact (List.Pairwise.imp (fun h => Nat.ne_of_lt h) (tableWf_iff.1 hU)).of_map _
        (fun a b hab hh => hab (congrArg (fun e => e.1.toNat) hh))
  rw [tableWf_iff, List.pairwise_map] at hT hU
  exact hp.eq_of_pairwise (fun a b _ _ h1 h2 => by omega) hT hU

end Sys2Proof.Machine
end

