-- ==== Sys2Proof/Laws/Ops.lean ====
section
/-! SUPPORT. One lemma per shared operation that says everything it can do, and the canonical form of
the stream table kept by every operation that writes it. -/

namespace Sys2Proof.Machine

/-! ### Outcomes -/

@[simp] theorem andThen_next (s : State) (k : State → Outcome) :
    andThen (.next s) k = k s := rfl
@[simp] theorem andThen_fault (r : Fault) (k : State → Outcome) :
    andThen (.fault r) k = .fault r := rfl
@[simp] theorem andThen_refused (r : Refusal) (k : State → Outcome) :
    andThen (.refused r) k = .refused r := rfl

/-- A sequence answers a next state exactly when both parts do. -/
theorem andThen_eq_next {o : Outcome} {k : State → Outcome} {t : State} :
    andThen o k = .next t ↔ ∃ s, o = .next s ∧ k s = .next t := by
  cases o <;> simp

/-- What a transmitted frame does: it became bytes, and they were appended to the TX list. -/
theorem txFrame_eq_next {f : Instr} {s t : State} :
    txFrame f s = .next t ↔
      ∃ buf, encode s.cfg.params s.cfg.build f = .bytes buf ∧ t = txItem (.txBytes buf) s := by
  unfold txFrame
  split <;> rename_i h <;> simp [h, eq_comm]

/-! ### The stream table -/

/-- What `transition` can do (R195). -/
theorem transition_eq_ok {sid : StreamId} {e : StreamEvent} {s t : State} :
    transition sid e s = .ok t ↔ ∃ r st, tableGet s.streams sid = some r ∧
      nextState r.state e = some st ∧ t = putStream sid { r with state := st } s := by
  unfold transition
  split
  · rename_i h; simp [h]
  · rename_i r h
    split
    · rename_i h2; simp [h, h2]
    · rename_i st h2; simp [h, h2, eq_comm]

theorem transition_unknown {sid : StreamId} {e : StreamEvent} {s : State} :
    transition sid e s = .error .unknownStream ↔ tableGet s.streams sid = none := by
  unfold transition
  split
  · rename_i h; simp [h]
  · rename_i r h
    split <;> simp [h]

theorem transition_of_get {sid : StreamId} {e : StreamEvent} {s : State} {r : Stream}
    (h : tableGet s.streams sid = some r) : transition sid e s =
      match nextState r.state e with
      | none => .error .invalidTransition
      | some st => .ok (putStream sid { r with state := st } s) := by
  cases hn : nextState r.state e <;> simp [transition, h, hn]

/-- An operation whose failure leaves the state alone: either it succeeded or nothing changed. -/
theorem orElseSame_cases (s : State) (o : Except TableError State) :
    o = .ok (orElseSame s o) ∨ orElseSame s o = s := by
  cases o <;> simp [orElseSame]

@[simp] theorem orElseSame_ok (s t : State) : orElseSame s (.ok t) = t := rfl
@[simp] theorem orElseSame_error (s : State) (e : TableError) : orElseSame s (.error e) = s := rfl

/-- What a transition that may be ignored can do: nothing, or one record's state changed. -/
theorem orElseSame_transition (sid : StreamId) (e : StreamEvent) (s : State) :
    orElseSame s (transition sid e s) = s ∨
      ∃ r st, tableGet s.streams sid = some r ∧ nextState r.state e = some st ∧
        orElseSame s (transition sid e s) = putStream sid { r with state := st } s := by
  rcases orElseSame_cases s (transition sid e s) with h | h
  · obtain ⟨r, st, h1, h2, h3⟩ := transition_eq_ok.1 h
    exact .inr ⟨r, st, h1, h2, h3⟩
  · exact .inl h

/-- What `open` can do (R192). -/
theorem openStream_eq_ok {sid : StreamId} {tier : Fin 8} {o : Origin} {s t : State} :
    openStream sid tier o s = .ok t ↔ sid ≠ 0 ∧ isLocal s.cfg.role sid = decide (o = .ours) ∧
      tableGet s.streams sid = none ∧ t = putStream sid (freshStream tier s) s := by
  unfold openStream
  split
  · rename_i h
    refine ⟨fun hh => (by simp at hh), fun ⟨h0, h1, _⟩ => ?_⟩
    rcases h with h | h
    · exact absurd h h0
    · exact absurd h1.symm h
  · rename_i h
    push Not at h
    split
    · rename_i h2
      constructor
      · intro hh; simp at hh
      · rintro ⟨_, _, h3, _⟩; simp [h3] at h2
    · rename_i h2
      simp only [Bool.not_eq_true, Option.isSome_eq_false_iff, Option.isNone_iff_eq_none] at h2
      simp only [Except.ok.injEq]
      exact ⟨fun hh => ⟨h.1, h.2.symm, h2, hh.symm⟩, fun hh => hh.2.2.2.symm⟩

/-- What `REMOVE_IF_CLOSED` can do (R197). -/
theorem removeIfClosed_cases (sid : StreamId) (s : State) :
    (removeIfClosed sid s = s ∧ ∀ r, tableGet s.streams sid = some r → r.state ≠ .closed) ∨
      (∃ r, tableGet s.streams sid = some r ∧ r.state = .closed ∧
        removeIfClosed sid s = emit (.onStreamClosed sid .normal) (closeStream sid s)) := by
  unfold removeIfClosed
  split
  · rename_i r h
    split
    · rename_i h2; exact .inr ⟨r, h, h2, rfl⟩
    · rename_i h2
      refine .inl ⟨rfl, ?_⟩
      intro q hq
      rw [h] at hq
      cases hq
      exact h2
  · rename_i h; exact .inl ⟨rfl, by simp [h]⟩

/-! ### The scheduler -/

theorem mapQueues_getElem (g : List QueueEntry → List QueueEntry) (qs : TierQueues) (t : Nat)
    (h : t < 8) : (mapQueues g qs)[t] = g qs[t] := by
  simp [mapQueues]

theorem mapQueues_toList (g : List QueueEntry → List QueueEntry) (qs : TierQueues) :
    (mapQueues g qs).toList = qs.toList.map g := by
  simp [mapQueues]

/-- A queue after a write to one of the eight. -/
theorem setQueue_getElem (t : Fin 8) (q : List QueueEntry) (s : State) (u : Fin 8) :
    (setQueue t q s).tierq[u] = if t = u then q else s.tierq[u] := by
  by_cases h : t = u
  · subst h; simp [setQueue]
  · have : (t : Nat) ≠ u := fun hh => h (Fin.ext hh)
    simp [setQueue, h, this]

@[simp] theorem emptyQueues_getElem (t : Fin 8) : emptyQueues[t] = [] := by
  simp [emptyQueues]

@[simp] theorem emptyQueues_toList : emptyQueues.toList = List.replicate 8 [] := by
  simp [emptyQueues]

theorem tierq_ext {qs us : TierQueues} (h : ∀ t : Fin 8, qs[t] = us[t]) : qs = us := by
  ext1 i hi
  exact h ⟨i, hi⟩

/-- What `enqueue` can do (R221): nothing without a record; else one frame at the end of the queue of
the record's tier. -/
theorem enqueue_cases (sid : StreamId) (f : Instr) (s : State) :
    (tableGet s.streams sid = none ∧ enqueue sid f s = s) ∨
      (∃ r, tableGet s.streams sid = some r ∧
        enqueue sid f s = setQueue r.tier (s.tierq[r.tier] ++ [(sid, f)]) s) := by
  unfold enqueue
  split
  · rename_i r h; exact .inr ⟨r, h, rfl⟩
  · rename_i h; exact .inl ⟨h, rfl⟩

theorem enqueue_of_get {sid : StreamId} {f : Instr} {s : State} {r : Stream}
    (h : tableGet s.streams sid = some r) :
    enqueue sid f s = setQueue r.tier (s.tierq[r.tier] ++ [(sid, f)]) s := by
  simp [enqueue, h]

/-! ### The windows -/

theorem avail_eq {sid : StreamId} {s : State} {a : Int} :
    avail sid s = some a ↔ ∃ r, tableGet s.streams sid = some r ∧
      a = min r.sendWindow s.sessionSendWindow := by
  unfold avail
  cases tableGet s.streams sid <;> simp [eq_comm]

/-- What `consume` can do (R237). -/
theorem consume_of_get {sid : StreamId} {n : Nat} {s : State} {r : Stream}
    (h : tableGet s.streams sid = some r) : consume sid n s =
      { putStream sid { r with sendWindow := r.sendWindow - n } s with
        sessionSendWindow := s.sessionSendWindow - n } := by
  simp [consume, h]

/-- What `replenish` can do (R238). -/
theorem replenish_eq_some {sid : StreamId} {n : Nat} {s t : State} :
    replenish sid n s = some t ↔
      (sid = 0 ∧ s.sessionSendWindow + n ≤ maxWindow ∧
        t = { s with sessionSendWindow := s.sessionSendWindow + n }) ∨
      (sid ≠ 0 ∧ tableGet s.streams sid = none ∧ t = s) ∨
      (sid ≠ 0 ∧ ∃ r, tableGet s.streams sid = some r ∧ r.sendWindow + n ≤ maxWindow ∧
        t = putStream sid { r with sendWindow := r.sendWindow + n } s) := by
  unfold replenish
  split
  · rename_i h
    split
    · rename_i h2
      refine ⟨fun hh => (by cases hh), ?_⟩
      rintro (⟨_, h3, _⟩ | ⟨h0, _⟩ | ⟨h0, _⟩)
      · exact absurd h3 (not_le.2 h2)
      · exact absurd h h0
      · exact absurd h h0
    · rename_i h2
      refine ⟨fun hh => .inl ⟨h, not_lt.1 h2, (Option.some.inj hh).symm⟩, ?_⟩
      rintro (⟨_, _, rfl⟩ | ⟨h0, _⟩ | ⟨h0, _⟩)
      · rfl
      · exact absurd h h0
      · exact absurd h h0
  · rename_i h
    split
    · rename_i h2
      refine ⟨fun hh => .inr (.inl ⟨h, h2, (Option.some.inj hh).symm⟩), ?_⟩
      rintro (⟨h0, _⟩ | ⟨_, _, rfl⟩ | ⟨_, r, hr, _⟩)
      · exact absurd h0 h
      · rfl
      · rw [h2] at hr; cases hr
    · rename_i r h2
      split
      · rename_i h3
        refine ⟨fun hh => (by cases hh), ?_⟩
        rintro (⟨h0, _⟩ | ⟨_, hr, _⟩ | ⟨_, q, hr, h4, _⟩)
        · exact absurd h0 h
        · rw [h2] at hr; cases hr
        · rw [h2] at hr; cases hr; exact absurd h4 (not_le.2 h3)
      · rename_i h3
        refine ⟨fun hh => .inr (.inr ⟨h, r, h2, not_lt.1 h3, (Option.some.inj hh).symm⟩), ?_⟩
        rintro (⟨h0, _⟩ | ⟨_, hr, _⟩ | ⟨_, q, hr, _, rfl⟩)
        · exact absurd h0 h
        · rw [h2] at hr; cases hr
        · rw [h2] at hr; cases hr; rfl

/-- `Overflow` (R238). -/
theorem replenish_eq_none {sid : StreamId} {n : Nat} {s : State} :
    replenish sid n s = none ↔
      (sid = 0 ∧ maxWindow < s.sessionSendWindow + n) ∨
      (sid ≠ 0 ∧ ∃ r, tableGet s.streams sid = some r ∧ maxWindow < r.sendWindow + n) := by
  rw [Option.eq_none_iff_forall_ne_some]
  constructor
  · intro hn
    by_cases h : sid = 0
    · refine .inl ⟨h, ?_⟩
      by_contra hc
      exact hn _ (replenish_eq_some.2 (.inl ⟨h, not_lt.1 hc, rfl⟩))
    · cases hg : tableGet s.streams sid with
      | none => exact absurd (replenish_eq_some.2 (.inr (.inl ⟨h, hg, rfl⟩))) (hn s)
      | some r =>
        refine .inr ⟨h, r, rfl, ?_⟩
        by_contra hc
        exact hn _ (replenish_eq_some.2 (.inr (.inr ⟨h, r, hg, not_lt.1 hc, rfl⟩)))
  · rintro (⟨h, h2⟩ | ⟨h, r, hg, h2⟩) t ht
    · rcases replenish_eq_some.1 ht with ⟨_, h3, _⟩ | ⟨h0, _⟩ | ⟨h0, _⟩
      · exact absurd h3 (not_le.2 h2)
      · exact absurd h h0
      · exact absurd h h0
    · rcases replenish_eq_some.1 ht with ⟨h0, _⟩ | ⟨_, hr, _⟩ | ⟨_, q, hr, h3, _⟩
      · exact absurd h0 h
      · rw [hg] at hr; cases hr
      · rw [hg] at hr; cases hr; exact absurd h3 (not_le.2 h2)

/-- What the SETTINGS adjustment can do (R240). -/
theorem adjustInitialWindow_eq_ok {v : Word32} {s t : State} :
    adjustInitialWindow v s = .ok t ↔ ∃ h : v.toNat < 2 ^ 31,
      (∀ e ∈ s.streams,
        e.2.sendWindow + ((v.toNat : Int) - s.peerInitialWindow.val) ≤ maxWindow) ∧
      t = { s with
        streams := tableMap (fun r =>
          { r with sendWindow := r.sendWindow + ((v.toNat : Int) - s.peerInitialWindow.val) })
          s.streams
        peerInitialWindow := ⟨v.toNat, h⟩ } := by
  unfold adjustInitialWindow
  split
  · rename_i h
    simp only []
    split
    · rename_i h2
      simp only [List.any_eq_true, decide_eq_true_eq] at h2
      obtain ⟨e, he, h3⟩ := h2
      simp only [reduceCtorEq, false_iff, not_exists, not_and]
      intro _ h4
      have := h4 e he
      omega
    · rename_i h2
      simp only [List.any_eq_true, decide_eq_true_eq, not_exists, not_and, not_lt] at h2
      simp only [Except.ok.injEq]
      exact ⟨fun hh => ⟨h, h2, hh.symm⟩, fun ⟨_, _, hh⟩ => hh.symm⟩
  · rename_i h
    exact ⟨fun hh => (by cases hh), fun ⟨hh, _⟩ => absurd hh h⟩

/-! ### Errors -/

/-- The GOAWAY this side sends always becomes bytes (R178). -/
theorem encode_goaway (c : Cfg) (build : Build) (lastGood : StreamId) (status : Word32) :
    encode c.params build (.goaway (wireVersion c) 0 lastGood status) =
      .bytes (goawayBytes c lastGood status) := by
  have h := revisionOf_versionTag_isSome c.params c.version
  obtain ⟨r, hr⟩ := Option.isSome_iff_exists.1 h
  have hr' : revisionOf c.params (wireVersion c) = some r := hr
  simp [encode, flagsLegal, Instr.flags, Instr.plen, Instr.ver?, Instr.controlType?, hr',
    encodePayload, goawayBytes, Params.typeCode, maxPayload, controlHeader,
    show beBytes 1 0 = [0#8] from rfl]

theorem txFrame_goaway (s : State) {c : Cfg} (h : s.cfg = c) {lastGood : StreamId}
    {status : Word32} : txFrame (.goaway (wireVersion c) 0 lastGood status) s =
      .next (txItem (.txBytes (goawayBytes c lastGood status)) s) := by
  subst h
  unfold txFrame
  rw [encode_goaway]

/-- The state `FLUSH_AND_CLOSE` leaves (R346): the GOAWAY is out when the transport is ready, else when
the free Boolean says so. -/
theorem flushAndClose_goaway (s : State) (lastGood : StreamId) (status : Word32) :
    flushAndClose (.goaway (wireVersion s.cfg) 0 lastGood status) s =
      .next { s with
        tx := s.tx ++ (if s.txReady || Config.flushDraw s.draws
          then [.txBytes (goawayBytes s.cfg lastGood status)] else []) ++ [.txClose]
        draws := if s.txReady then s.draws else s.draws + 1
        mode := .closed
        goaway := .sent } := by
  unfold flushAndClose
  by_cases h : s.txReady = true
  · rw [if_pos h, txFrame_goaway s rfl]
    simp [h, markClosed, txItem]
  · rw [if_neg h]
    simp only [Bool.not_eq_true] at h
    by_cases hd : Config.flushDraw s.draws = true
    · simp only [hd, if_true]
      rw [txFrame_goaway { s with draws := s.draws + 1 } rfl]
      simp [h, markClosed, txItem]
    · simp only [Bool.not_eq_true] at hd
      simp [h, hd, markClosed, txItem]

/-- `FLUSH_AND_CLOSE` on the emptied session, after `evs` were emitted (R312, R345): one state. -/
theorem flushAndClose_discardAll (s : State) (evs : List Event) (status : Word32) :
    flushAndClose (.goaway (wireVersion s.cfg) 0 s.lastGoodPeerId status)
      (discardAll (emitAll evs s)) = .next (tornDown status evs s) :=
  flushAndClose_goaway (discardAll (emitAll evs s)) _ _

/-- Everything `FATAL` does (R345): it always answers this next state. -/
theorem fatal_eq (cause : FatalCause) (s : State) : fatal cause s = .next (afterFatal cause s) := by
  have h := flushAndClose_discardAll s (fatalEvents cause s) s.cfg.params.goawayProtocolError
  have e : emitAll (fatalEvents cause s) s =
      emit (.onGoaway s.lastGoodPeerId (.sessionError cause)) (emitAll (abortEvents s.streams) s) := by
    simp [emitAll, emit, fatalEvents, abortEvents]
  rw [e] at h
  exact h

/-- Removing one stream with all that waits for it (R197, R226). -/
theorem withoutStreams_one (sid : StreamId) (s : State) :
    withoutStreams [sid] s = closeStream sid (purge sid s) := by
  simp [withoutStreams, closeStream, purge, tableErase, queuedDataBytes]

/-- Everything `STREAM_ERROR` does (R343), as one state. -/
theorem streamError_eq (sid : StreamId) (status : Word32) (reason : CloseReason) (s : State) :
    streamError sid status reason s = afterStreamError sid status reason s := by
  unfold streamError afterStreamError
  rw [withoutStreams_one]
  simp only []
  rcases orElseSame_transition sid .sendRst
    (enqueueUrgent (.rstStream (wireVersion s.cfg) 0 sid status) s) with h | ⟨r, st, _, _, h⟩
  · rw [h]; rfl
  · rw [h]
    simp only [emit, closeStream, purge, putStream, enqueueUrgent, tableErase_put, withRst]

theorem bareRst_eq (sid : StreamId) (status : Word32) (s : State) :
    bareRst sid status s = withRst sid status s := rfl

/-! ### The canonical form is kept -/

theorem putStream_wf {sid : StreamId} {r : Stream} {s : State} (h : tableWf s.streams = true) :
    tableWf (putStream sid r s).streams = true := tableWf_put sid r h

theorem closeStream_wf {sid : StreamId} {s : State} (h : tableWf s.streams = true) :
    tableWf (closeStream sid s).streams = true := tableWf_erase sid h

theorem orElseSame_transition_wf {sid : StreamId} {e : StreamEvent} {s : State}
    (h : tableWf s.streams = true) :
    tableWf (orElseSame s (transition sid e s)).streams = true := by
  rcases orElseSame_transition sid e s with h2 | ⟨r, st, _, _, h2⟩ <;> rw [h2]
  · exact h
  · exact tableWf_put sid _ h

theorem orElseSame_openStream_wf {sid : StreamId} {tier : Fin 8} {o : Origin} {s : State}
    (h : tableWf s.streams = true) :
    tableWf (orElseSame s (openStream sid tier o s)).streams = true := by
  rcases orElseSame_cases s (openStream sid tier o s) with h2 | h2
  · obtain ⟨_, _, _, h3⟩ := openStream_eq_ok.1 h2
    rw [h3]
    exact tableWf_put sid _ h
  · rw [h2]; exact h

theorem removeIfClosed_wf {sid : StreamId} {s : State} (h : tableWf s.streams = true) :
    tableWf (removeIfClosed sid s).streams = true := by
  rcases removeIfClosed_cases sid s with ⟨h2, _⟩ | ⟨r, _, _, h2⟩ <;> rw [h2]
  · exact h
  · exact tableWf_erase sid h

theorem enqueue_streams (sid : StreamId) (f : Instr) (s : State) :
    (enqueue sid f s).streams = s.streams := by
  rcases enqueue_cases sid f s with ⟨_, h⟩ | ⟨r, _, h⟩ <;> rw [h]
  rfl

theorem consume_wf {sid : StreamId} {n : Nat} {s : State} (h : tableWf s.streams = true) :
    tableWf (consume sid n s).streams = true := by
  unfold consume
  split
  · exact tableWf_put sid _ h
  · exact h

theorem replenish_wf {sid : StreamId} {n : Nat} {s t : State} (h : tableWf s.streams = true)
    (hr : replenish sid n s = some t) : tableWf t.streams = true := by
  rcases replenish_eq_some.1 hr with ⟨_, _, rfl⟩ | ⟨_, _, rfl⟩ | ⟨_, r, _, _, rfl⟩
  · exact h
  · exact h
  · exact tableWf_put sid _ h

theorem adjustInitialWindow_wf {v : Word32} {s t : State} (h : tableWf s.streams = true)
    (hr : adjustInitialWindow v s = .ok t) : tableWf t.streams = true := by
  obtain ⟨_, _, rfl⟩ := adjustInitialWindow_eq_ok.1 hr
  dsimp only
  exact tableWf_map _ h

theorem debitRecv_wf {sid : StreamId} {r : Stream} {n : Nat} {s : State}
    (h : tableWf s.streams = true) : tableWf (debitRecv sid r n s).streams = true :=
  tableWf_put sid _ h

theorem returnCredit_wf {sid : StreamId} {n : Nat} {s : State} (h : tableWf s.streams = true) :
    tableWf (returnCredit sid n s).streams = true := by
  unfold returnCredit
  split
  · exact h
  · simp only [enqueueUrgent_streams]
    split
    · split
      · rw [enqueue_streams]; exact tableWf_put sid _ h
      · exact h
    · exact h

theorem streamError_wf {sid : StreamId} {status : Word32} {reason : CloseReason} {s : State}
    (h : tableWf s.streams = true) : tableWf (streamError sid status reason s).streams = true := by
  rw [streamError_eq]
  exact (tableWf_iff.2 ((tableWf_iff.1 h).sublist ((List.filter_sublist).map _)))

theorem reset_wf (c : Cfg) : tableWf (State.ofCfg c).streams = true := tableWf_nil

/-! ### The transmit stream (R60) -/

/-- A command that returns leaves the transmit stream as it was. -/
@[simp] theorem ret_transmitStream (result : Result) (s : State) :
    transmitStream (ret result s) = transmitStream s := by
  simp [transmitStream]

/-- An item goes behind what went out before it. -/
@[simp] theorem txItem_transmitStream (item : TxItem) (s : State) :
    transmitStream (txItem item s) = transmitStream s ++ item.buf := by
  simp [transmitStream]

end Sys2Proof.Machine
end

