-- ==== Sys2Proof/Laws/PerInstr.lean ====
section
/-! SUPPORT. Facts stated once per constructor of `Instr`. -/

namespace Sys2Proof

/-- Only a frame with legal flags and a payload that fits the length field becomes bytes (R171). -/
theorem legal_of_encode {p : Params} {build : Build} {f : Instr} {buf : Bytes}
    (h : encode p build f = .bytes buf) :
    Machine.flagsLegal p f = true ∧ f.plen ≤ maxPayload := by
  unfold encode at h
  split at h
  · cases h
  · rename_i h1
    split at h
    · cases h
    · rename_i h2
      exact ⟨by simpa using h1, not_lt.1 h2⟩

namespace Laws.EncodeOnlyLegal

/-- Encode never emits an illegal flag bit, nor a length the 24-bit field cannot hold. -/
def Statement (i : Instr) : Prop :=
  ∀ (p : Params) (build : Build) (buf : Bytes), encode p build i = .bytes buf →
    Machine.flagsLegal p i = true ∧ i.plen ≤ maxPayload

theorem data (sid : StreamId) (flags : Byte) (payload : Bytes) :
    Statement (.data sid flags payload) := fun _ _ _ => legal_of_encode

theorem synStream (ver : VersionTag) (flags : Byte) (sid assoc : StreamId) (tier : Fin 8)
    (hb : Bytes) : Statement (.synStream ver flags sid assoc tier hb) :=
  fun _ _ _ => legal_of_encode

theorem synReply (ver : VersionTag) (flags : Byte) (sid : StreamId) (hb : Bytes) :
    Statement (.synReply ver flags sid hb) := fun _ _ _ => legal_of_encode

theorem rstStream (ver : VersionTag) (flags : Byte) (sid : StreamId) (status : Word32) :
    Statement (.rstStream ver flags sid status) := fun _ _ _ => legal_of_encode

theorem settings (ver : VersionTag) (flags : Byte) (entries : List SettingsEntry) :
    Statement (.settings ver flags entries) := fun _ _ _ => legal_of_encode

theorem ping (ver : VersionTag) (flags : Byte) (id : Word32) :
    Statement (.ping ver flags id) := fun _ _ _ => legal_of_encode

theorem goaway (ver : VersionTag) (flags : Byte) (lastGood : StreamId) (status : Word32) :
    Statement (.goaway ver flags lastGood status) := fun _ _ _ => legal_of_encode

theorem headers (ver : VersionTag) (flags : Byte) (sid : StreamId) (tier : Fin 8) (hb : Bytes) :
    Statement (.headers ver flags sid tier hb) := fun _ _ _ => legal_of_encode

theorem windowUpdate (ver : VersionTag) (flags : Byte) (sid : StreamId) (delta : BitVec 31) :
    Statement (.windowUpdate ver flags sid delta) := fun _ _ _ => legal_of_encode

end Laws.EncodeOnlyLegal

end Sys2Proof
end

