-- ==== Sys2Proof/Laws/Transmit.lean ====
section
/-! SUPPORT. Which fields the operations of the transmit path write: each lemma says that the state
after is the state before with only the named fields replaced. Taking a field of both sides gives the
frame of the operation. -/

namespace Sys2Proof.Machine

/-! ### The operations on one stream -/

theorem enqueue_eq (sid : StreamId) (f : Instr) (s : State) :
    enqueue sid f s = { s with tierq := (enqueue sid f s).tierq } := by
  rcases enqueue_cases sid f s with ⟨_, h⟩ | ⟨r, _, h⟩ <;> rw [h]
  rfl

theorem consume_eq (sid : StreamId) (n : Nat) (s : State) :
    consume sid n s = { s with
      streams := (consume sid n s).streams
      sessionSendWindow := (consume sid n s).sessionSendWindow } := by
  unfold consume
  split <;> rfl

theorem removeIfClosed_eq (sid : StreamId) (s : State) :
    removeIfClosed sid s = { s with
      streams := (removeIfClosed sid s).streams
      events := (removeIfClosed sid s).events } := by
  rcases removeIfClosed_cases sid s with ⟨h, _⟩ | ⟨r, _, _, h⟩ <;> rw [h]
  rfl

theorem orElseSame_transition_eq (sid : StreamId) (e : StreamEvent) (s : State) :
    orElseSame s (transition sid e s) =
      { s with streams := (orElseSame s (transition sid e s)).streams } := by
  rcases orElseSame_transition sid e s with h | ⟨r, st, _, _, h⟩ <;> rw [h]
  rfl

theorem orElseSame_openStream_eq (sid : StreamId) (tier : Fin 8) (o : Origin) (s : State) :
    orElseSame s (openStream sid tier o s) =
      { s with streams := (orElseSame s (openStream sid tier o s)).streams } := by
  rcases orElseSame_cases s (openStream sid tier o s) with h | h
  · obtain ⟨_, _, _, h2⟩ := openStream_eq_ok.1 h
    rw [h2]; rfl
  · rw [h]

theorem returnCredit_eq (sid : StreamId) (n : Nat) (s : State) :
    returnCredit sid n s = { s with
      sessionRecvWindow := (returnCredit sid n s).sessionRecvWindow
      urgent := (returnCredit sid n s).urgent
      streams := (returnCredit sid n s).streams
      tierq := (returnCredit sid n s).tierq } := by
  unfold returnCredit
  split
  · rfl
  · simp only []
    split
    · split
      · rw [enqueue_eq]; rfl
      · rfl
    · rfl

/-! ### The gate -/

/-- One turn of the gate that queues a piece, before the test for the last piece. -/
theorem drainPiece_eq (sid : StreamId) (n : Nat) (f : Instr) (s : State) :
    let t := enqueue sid f (orElseSame (consume sid n s) (transition sid .sendFrame (consume sid n s)))
    t = { s with
      streams := t.streams
      sessionSendWindow := t.sessionSendWindow
      tierq := t.tierq } := by
  simp only []
  rw [enqueue_eq, orElseSame_transition_eq, consume_eq]

/-- What `drainWrite` may change. -/
theorem drainWrite_eq (turns : Nat) (sid : StreamId) (rem : Bytes) (fin : Bool) (s : State) :
    (drainWrite turns sid rem fin s).1 = { s with
      streams := (drainWrite turns sid rem fin s).1.streams
      sessionSendWindow := (drainWrite turns sid rem fin s).1.sessionSendWindow
      tierq := (drainWrite turns sid rem fin s).1.tierq
      events := (drainWrite turns sid rem fin s).1.events } := by
  induction turns generalizing rem s with
  | zero => rfl
  | succ turns ih =>
    unfold drainWrite
    split
    · rfl
    · rename_i a ha
      simp only []
      split
      · have h := drainPiece_eq sid (pieceSize s.cfg rem a)
          (.data sid (if (decide (pieceSize s.cfg rem a = rem.length) && fin) = true
            then s.cfg.params.flagFin else 0) (rem.take (pieceSize s.cfg rem a))) s
        simp only [] at h
        split
        · split
          · simp only []
            rw [removeIfClosed_eq, orElseSame_transition_eq, h]
          · simp only []
            rw [h]
        · rw [ih, h]
      · rfl

/-- What the walk over the pending writes may change. -/
theorem drainFrom_eq (ws : List PendingWrite) (stuck : List StreamId) (s : State) :
    (drainFrom ws stuck s).1 = { s with
      streams := (drainFrom ws stuck s).1.streams
      sessionSendWindow := (drainFrom ws stuck s).1.sessionSendWindow
      tierq := (drainFrom ws stuck s).1.tierq
      events := (drainFrom ws stuck s).1.events } := by
  induction ws generalizing stuck s with
  | nil => rfl
  | cons w rest ih =>
    have h := drainWrite_eq (w.bytes.length + 1) w.sid w.bytes w.fin s
    unfold drainFrom
    split
    · exact ih stuck s
    · split <;> rename_i t heq <;> rw [heq] at h <;> simp only [] at h ⊢ <;> rw [ih, h]

/-- What `DRAIN` may change (R305). -/
theorem drain_eq (s : State) :
    drain s = { s with
      streams := (drain s).streams
      sessionSendWindow := (drain s).sessionSendWindow
      tierq := (drain s).tierq
      events := (drain s).events
      pending := (drain s).pending } := by
  have h := drainFrom_eq s.pending [] s
  unfold drain
  simp only []
  rw [h]

/-! ### The scheduler and the pump -/

/-- What `next()` may change (R222). -/
theorem next_eq {s t : State} {f : Instr} (h : next s = some (f, t)) :
    t = { s with urgent := t.urgent, tierq := t.tierq } := by
  unfold next at h
  split at h
  · cases h; rfl
  · split at h
    · cases h
    · split at h
      · cases h
      · cases h; rfl

/-- What `PUMP` may change (R315). -/
theorem pumpTurns_eq {turns : Nat} {s t : State} (h : pumpTurns turns s = .next t) :
    t = { s with urgent := t.urgent, tierq := t.tierq, tx := t.tx } := by
  induction turns generalizing s with
  | zero => cases h; rfl
  | succ turns ih =>
    unfold pumpTurns at h
    split at h
    · split at h
      · cases h; rfl
      · rename_i f u hu
        obtain ⟨v, hv, hv2⟩ := andThen_eq_next.1 h
        obtain ⟨buf, _, rfl⟩ := txFrame_eq_next.1 hv
        rw [ih hv2, next_eq hu]
        rfl
    · cases h; rfl

/-- What the tear-down may change (R316). -/
theorem tearDownIfDone_eq (s : State) :
    tearDownIfDone s = { s with mode := (tearDownIfDone s).mode, tx := (tearDownIfDone s).tx } := by
  unfold tearDownIfDone
  split <;> rfl

/-- What `EPILOGUE` may change (R316). -/
theorem epilogue_eq {s t : State} (h : epilogue s = .next t) :
    t = { s with
      mode := t.mode
      sessionSendWindow := t.sessionSendWindow
      streams := t.streams
      urgent := t.urgent
      tierq := t.tierq
      pending := t.pending
      events := t.events
      tx := t.tx } := by
  unfold epilogue at h
  split at h
  · cases h; rfl
  · obtain ⟨u, hu, h2⟩ := andThen_eq_next.1 h
    cases h2
    have h3 := pumpTurns_eq hu
    rw [tearDownIfDone_eq, h3, drain_eq]

/-- An ended session's epilogue does nothing (R316). -/
theorem epilogue_of_ended {s : State} (h : ended s = true) : epilogue s = .next s := by
  simp [epilogue, h]

/-! ### The canonical form of the table -/

theorem drainWrite_wf {turns : Nat} {sid : StreamId} {rem : Bytes} {fin : Bool} {s : State}
    (h : tableWf s.streams = true) :
    tableWf (drainWrite turns sid rem fin s).1.streams = true := by
  induction turns generalizing rem s with
  | zero => exact h
  | succ turns ih =>
    unfold drainWrite
    split
    · exact h
    · simp only []
      split
      · split
        · split
          · exact removeIfClosed_wf (orElseSame_transition_wf (by
              rw [enqueue_streams]; exact orElseSame_transition_wf (consume_wf h)))
          · simp only [enqueue_streams]
            exact orElseSame_transition_wf (consume_wf h)
        · exact ih (by rw [enqueue_streams]; exact orElseSame_transition_wf (consume_wf h))
      · exact h

theorem drainFrom_wf {ws : List PendingWrite} {stuck : List StreamId} {s : State}
    (h : tableWf s.streams = true) : tableWf (drainFrom ws stuck s).1.streams = true := by
  induction ws generalizing stuck s with
  | nil => exact h
  | cons w rest ih =>
    have h2 := drainWrite_wf (turns := w.bytes.length + 1) (sid := w.sid) (rem := w.bytes)
      (fin := w.fin) h
    unfold drainFrom
    split
    · exact ih h
    · split <;> rename_i t heq <;> rw [heq] at h2 <;> exact ih h2

/-- `DRAIN` keeps the canonical form. -/
theorem drain_wf {s : State} (h : tableWf s.streams = true) : tableWf (drain s).streams = true :=
  drainFrom_wf h

/-- `EPILOGUE` keeps the canonical form. -/
theorem epilogue_wf {s t : State} (h : tableWf s.streams = true) (he : epilogue s = .next t) :
    tableWf t.streams = true := by
  unfold epilogue at he
  split at he
  · cases he; exact h
  · obtain ⟨u, hu, h2⟩ := andThen_eq_next.1 he
    cases h2
    rw [tearDownIfDone_eq, pumpTurns_eq hu]
    exact drain_wf h

end Sys2Proof.Machine
end

