-- ==== Sys2Proof/Tests/Slice0.lean ====
section
/-! SUPPORT. Small tests: words written out from the encodings of spec/30_encoding.md and the vectors of
spec/95_test_vectors.md, ill-formed frames, single steps, and for every statement with hypotheses a
concrete state that meets them. -/

namespace Sys2Proof.Tests

open Sys2Proof.Machine

abbrev p0 : Params := Params.default

/-! ### Decoding words written out from the spec's encodings -/

-- V41: control bit 0, sid 1, flags 01, length 3
theorem test_decode_data : decode p0 [0x00, 0x00, 0x00, 0x01, 0x01, 0x00, 0x00, 0x03, 0x61, 0x62, 0x63] =
    .ok (.data 1 0x01 [0x61, 0x62, 0x63]) := by decide
-- V46: version 3, tier 5 in the top three bits of a0
theorem test_decode_synStream : decode p0 [0x80, 0x03, 0x00, 0x01, 0x01, 0x00, 0x00, 0x0c, 0x00, 0x00,
    0x00, 0x01, 0x00, 0x00, 0x00, 0x00, 0xa0, 0x00, 0xaa, 0xbb] =
    .ok (.synStream 3 0x01 1 0 5 [0xaa, 0xbb]) := by decide
-- V45: version 2, tier 3 in the top two bits of c0
theorem test_decode_synStream_legacy : decode p0 [0x80, 0x02, 0x00, 0x01, 0x00, 0x00, 0x00, 0x0a, 0x00,
    0x00, 0x00, 0x01, 0x00, 0x00, 0x00, 0x00, 0xc0, 0x00] = .ok (.synStream 2 0 1 0 3 []) := by decide
-- V47
theorem test_decode_synReply : decode p0 [0x80, 0x03, 0x00, 0x02, 0x00, 0x00, 0x00, 0x07, 0x00, 0x00,
    0x00, 0x01, 0x01, 0x02, 0x03] = .ok (.synReply 3 0 1 [0x01, 0x02, 0x03]) := by decide
-- V48
theorem test_decode_rstStream : decode p0 [0x80, 0x03, 0x00, 0x03, 0x00, 0x00, 0x00, 0x08, 0x00, 0x00,
    0x00, 0x05, 0x00, 0x00, 0x00, 0x05] = .ok (.rstStream 3 0 5 5) := by decide
-- V49
theorem test_decode_settings : decode p0 [0x80, 0x03, 0x00, 0x04, 0x00, 0x00, 0x00, 0x14, 0x00, 0x00,
    0x00, 0x02, 0x00, 0x00, 0x00, 0x04, 0x00, 0x00, 0x00, 0x64, 0x00, 0x00, 0x00, 0x07, 0x00, 0x00, 0x00,
    0x04] = .ok (.settings 3 0 [⟨0, 4, 100⟩, ⟨0, 7, 4⟩]) := by decide
-- V50: big-endian
theorem test_decode_ping : decode p0 [0x80, 0x03, 0x00, 0x06, 0x00, 0x00, 0x00, 0x04, 0x01, 0x02, 0x03,
    0x04] = .ok (.ping 3 0 16909060) := by decide
-- V51
theorem test_decode_goaway : decode p0 [0x80, 0x03, 0x00, 0x07, 0x00, 0x00, 0x00, 0x08, 0x00, 0x00,
    0x00, 0x03, 0x00, 0x00, 0x00, 0x00] = .ok (.goaway 3 0 3 0) := by decide
-- V52
theorem test_decode_headers : decode p0 [0x80, 0x03, 0x00, 0x08, 0x00, 0x00, 0x00, 0x07, 0x00, 0x00,
    0x00, 0x07, 0x40, 0x00, 0x09] = .ok (.headers 3 0 7 2 [0x09]) := by decide
-- V54
theorem test_decode_windowUpdate : decode p0 [0x80, 0x03, 0x00, 0x09, 0x00, 0x00, 0x00, 0x08, 0x00, 0x00,
    0x00, 0x00, 0x7f, 0xff, 0xff, 0xff] = .ok (.windowUpdate 3 0 0 2147483647) := by decide

-- V2, V4, V9, V12, V14, V15, V19, V27, V28, V29: one error of each kind, in the order of R150
theorem test_decode_tooShort : decode p0 [0x80, 0x03, 0x00, 0x06, 0x00, 0x00, 0x00] =
    .error (.malformed .tooShort) := by decide
theorem test_decode_version_before_type : decode p0 [0x80, 0x04, 0x00, 0x63, 0x00, 0x00, 0x00, 0x00] =
    .error (.unknownVersion 4) := by decide
theorem test_decode_type_before_length : decode p0 [0x80, 0x03, 0x00, 0x05, 0x00, 0x00, 0x00, 0x04] =
    .error (.unknownFrameType 5) := by decide
theorem test_decode_flags_before_length : decode p0 [0x00, 0x00, 0x00, 0x01, 0x04, 0x00, 0x00, 0x09] =
    .error (.illegalBits .flags) := by decide
theorem test_decode_exceeds : decode p0 [0x00, 0x00, 0x00, 0x01, 0x00, 0x00, 0x00, 0x04, 0x61, 0x62, 0x63] =
    .error (.malformed .lengthExceedsBuffer) := by decide
theorem test_decode_truncated : decode p0 [0x00, 0x00, 0x00, 0x01, 0x00, 0x00, 0x00, 0x02, 0x61, 0x62, 0x63,
    0x64] = .error (.malformed .truncated) := by decide
theorem test_decode_badLength : decode p0 [0x80, 0x03, 0x00, 0x04, 0x00, 0x00, 0x00, 0x05, 0x00, 0x00, 0x00,
    0x00, 0x00] = .error (.malformed .badPayloadLength) := by decide
theorem test_decode_reserved_priority : decode p0 [0x80, 0x02, 0x00, 0x01, 0x00, 0x00, 0x00, 0x0a, 0x00,
    0x00, 0x00, 0x01, 0x00, 0x00, 0x00, 0x00, 0xe0, 0x00] = .error (.illegalBits .reserved) := by decide
theorem test_decode_offset_order : decode p0 [0x80, 0x03, 0x00, 0x01, 0x00, 0x00, 0x00, 0x0a, 0x80, 0x00,
    0x00, 0x01, 0x00, 0x00, 0x00, 0x00, 0x10, 0x00] =
    .error (.illegalBits .streamIdHighBit) := by decide
theorem test_decode_delta_high_bit : decode p0 [0x80, 0x03, 0x00, 0x09, 0x00, 0x00, 0x00, 0x08, 0x00, 0x00,
    0x00, 0x01, 0x80, 0x00, 0x00, 0x01] = .error (.illegalBits .reserved) := by decide

/-! ### Encoding: back to the same words (V49, V45), and the tier policy (R174) -/

theorem test_encode_settings : encode p0 .debug (.settings 3 0 [⟨0, 4, 100⟩, ⟨0, 7, 4⟩]) =
    .bytes [0x80, 0x03, 0x00, 0x04, 0x00, 0x00, 0x00, 0x14, 0x00, 0x00, 0x00, 0x02, 0x00, 0x00, 0x00, 0x04,
      0x00, 0x00, 0x00, 0x64, 0x00, 0x00, 0x00, 0x07, 0x00, 0x00, 0x00, 0x04] := by decide
theorem test_encode_clamps : encode p0 .release (.synStream 2 0 1 0 5 []) =
    .bytes [0x80, 0x02, 0x00, 0x01, 0x00, 0x00, 0x00, 0x0a, 0x00, 0x00, 0x00, 0x01, 0x00, 0x00, 0x00, 0x00,
      0xc0, 0x00] := by decide
theorem test_encode_tier_fault : encode p0 .debug (.synStream 2 0 1 0 5 []) = .fault .tierRange := by
  decide
theorem test_encode_illegal_flags : encode p0 .release (.ping 3 4 0) = .refused .illegalFlags := by
  decide

/-! ### Well-formedness refuses an ill-formed frame of each kind -/

theorem test_wf_good : Instr.wf p0 (.headers 3 1 7 2 [9]) = true := by decide
theorem test_wf_control_flags : Instr.wf p0 (.ping 3 4 1) = false := by decide
theorem test_wf_data_flags : Instr.wf p0 (.data 1 0x80 []) = false := by decide
theorem test_wf_version : Instr.wf p0 (.ping 4 0 1) = false := by decide
theorem test_wf_too_long (payload : Bytes) (h : payload.length = 0x1000000) :
    Instr.wf p0 (.data 1 0 payload) = false := by
  simp [Instr.wf, Instr.plen, maxPayload, h]
theorem test_tierOk_legacy : Instr.tierOk p0 (.synStream 2 0 1 0 4 []) = false := by decide
theorem test_tierOk_good : Instr.tierOk p0 (.synStream 2 0 1 0 3 []) = true := by decide

/-! ### Outcomes of a step -/

def isNext : Outcome → Bool
  | .next _ => true
  | .fault _ => false
  | .refused _ => false

theorem exists_next {o : Outcome} (h : isNext o = true) : ∃ t, o = .next t := by
  cases o <;> simp_all [isNext]

/-- The transmit stream after a step. -/
def streamAfter : Outcome → Option Bytes
  | .next s => some (transmitStream s)
  | .fault _ => none
  | .refused _ => none

theorem exists_stream {o : Outcome} {bs : Bytes} (h : streamAfter o = some bs) :
    ∃ t, o = .next t ∧ transmitStream t = bs := by
  cases o <;> simp_all [streamAfter]

def answers (t : State) : Outcome → Bool
  | .next s => decide (s = t)
  | .fault _ => false
  | .refused _ => false

theorem of_answers {o : Outcome} {t : State} (h : answers t o = true) : o = .next t := by
  cases o <;> simp_all [answers]

/-! ### Opcode-table words -/

-- the DATA row's match word; a PING header of version 3 and length 4 (R91, R104)
theorem test_tableWord_data : decodeTableWord 64 0 = some (.data 0 0 []) := by decide
theorem test_tableWord_ping : decodeTableWord 64 0x8003000600000004 = some (.ping 3 0 0) := by decide
theorem test_tableWord_step :
    step (State.reset.withFetchWord 64 0x8003000600000004) =
      .next { State.reset with phase := .receiving, rxOffset := 12, urgent := [.ping 3 0 0] } := of_answers (by decide)

/-! ### Small states -/

abbrev c0 : Cfg :=
  { Cfg.default with
    maxPeerStreams := 2
    localInitialWindow := 4
    sessionInitialWindow := 10
    maxDataPayload := 8 }

abbrev strm (st : StreamState) : Stream :=
  { state := st
    tier := 1
    sendWindow := 8
    recvWindow := 4
    localFinQueued := false }

/-- A client with streams 1 (open), 2 (open), 3 (half closed remote), 5 (half closed local). -/
abbrev s0 : State :=
  { State.ofCfg c0 with
    nextStreamId := 7
    lastPeerId := 2
    lastGoodPeerId := 2
    peerInitialWindow := 8
    streams := [(1, strm .opened), (2, strm .opened), (3, strm .halfClosedRemote),
      (5, strm .halfClosedLocal)] }

abbrev withInbox (cs : List Command) (s : State) : State := { s with inbox := cs }
abbrev receiving (buf : Bytes) (s : State) : State := { s with phase := .receiving, rxBuf := buf }

/-- A PING frame of version 3, ID 7. -/
abbrev pingBytes : Bytes := [0x80, 0x03, 0x00, 0x06, 0x00, 0x00, 0x00, 0x04, 0x00, 0x00, 0x00, 0x07]

/-! ### One frame each -/

theorem test_data_credit : exec (.data 1 0 [0x61]) s0 = .next { s0 with
    events := [.onData 1 [0x61] false]
    urgent := [.windowUpdate 3 0 0 1]
    tierq := s0.tierq.set 1 [(1, .windowUpdate 3 0 1 1)] } := of_answers (by decide)
theorem test_data_fin_closes : exec (.data 5 1 []) s0 = .next { s0 with
    events := [.onData 5 [] true, .onStreamClosed 5 .normal]
    streams := [(1, strm .opened), (2, strm .opened), (3, strm .halfClosedRemote)] } := of_answers (by decide)
theorem test_synStream_opens : exec (.synStream 3 0 4 0 2 [9]) { s0 with streams := [] } = .next { s0 with
    lastPeerId := 4
    lastGoodPeerId := 4
    events := [.onHeaders 4 [9]]
    streams := [(4, { strm .opened with tier := 2 })] } := of_answers (by decide)
theorem test_synStream_refused :
    exec (.synStream 3 0 6 0 2 [9]) { s0 with streams := [(2, strm .opened), (4, strm .opened)] } = .next
      { s0 with
        lastPeerId := 6
        streams := [(2, strm .opened), (4, strm .opened)]
        urgent := [.rstStream 3 0 6 3] } := of_answers (by decide)
theorem test_synReply_invalid : exec (.synReply 3 0 3 []) s0 = .next { s0 with
    events := [.onStreamClosed 3 (.streamProtocolError .invalidTransition)]
    streams := [(1, strm .opened), (2, strm .opened), (5, strm .halfClosedLocal)]
    urgent := [.rstStream 3 0 3 1] } := of_answers (by decide)
theorem test_rstStream_unknown : exec (.rstStream 3 0 9 5) s0 = .next s0 := of_answers (by decide)
theorem test_rstStream_closes : exec (.rstStream 3 0 1 5) { s0 with
    tierq := s0.tierq.set 1 [(1, .data 1 0 [1, 2])] } = .next { s0 with
    events := [.onStreamClosed 1 (.resetByPeer 5)]
    streams := [(2, strm .opened), (3, strm .halfClosedRemote), (5, strm .halfClosedLocal)]
    sessionSendWindow := 12 } := of_answers (by decide)
theorem test_settings_limit : exec (.settings 3 0 [⟨0, 4, 1⟩, ⟨0, 9, 5⟩, ⟨1, 4, 2⟩]) s0 =
    .next { s0 with peerMaxStreams := some 2 } := of_answers (by decide)
theorem test_settings_window : exec (.settings 3 0 [⟨0, 7, 2⟩]) { s0 with streams := [(1, strm .opened)] } =
    .next { s0 with
      peerInitialWindow := 2
      streams := [(1, { strm .opened with sendWindow := 2 })] } := of_answers (by decide)
theorem test_ping_echo : exec (.ping 3 1 7) s0 = .next { s0 with urgent := [.ping 3 0 7] } := of_answers (by decide)
theorem test_goaway_aborts : exec (.goaway 3 0 3 0) s0 = .next { s0 with
    mode := .goingAway
    goaway := .received 3
    events := [.onGoaway 3 (.peerGoaway 0), .onStreamClosed 5 .aborted]
    streams := [(1, strm .opened), (2, strm .opened), (3, strm .halfClosedRemote)] } := of_answers (by decide)
theorem test_goaway_version_fatal : exec (.goaway 2 0 3 0) { s0 with streams := [] } = .next { s0 with
    mode := .closed
    goaway := .sent
    streams := []
    events := [.onGoaway 2 (.sessionError (.unknownVersion .versionMismatch))]
    tx := [.txBytes [0x80, 0x03, 0x00, 0x07, 0x00, 0x00, 0x00, 0x08, 0x00, 0x00, 0x00, 0x02, 0x00, 0x00,
      0x00, 0x01], .txClose] } := of_answers (by decide)
theorem test_headers_fin : exec (.headers 3 1 1 7 [9]) { s0 with streams := [(1, strm .opened)] } =
    .next { s0 with
      events := [.onHeaders 1 [9], .onData 1 [] true]
      streams := [(1, strm .halfClosedRemote)] } := of_answers (by decide)
theorem test_windowUpdate_session : exec (.windowUpdate 3 0 0 5) s0 =
    .next { s0 with sessionSendWindow := 15 } := of_answers (by decide)
theorem test_windowUpdate_overflow :
    exec (.windowUpdate 3 0 1 2147483640) { s0 with streams := [(1, strm .opened)] } = .next { s0 with
      streams := []
      urgent := [.rstStream 3 0 1 7]
      events := [.onStreamClosed 1 (.streamProtocolError .windowOverflow)] } := of_answers (by decide)

/-! ### One command each -/

-- SYN_STREAM of the first stream, tier 0 (R300, R100)
theorem test_openStream : step (withInbox [.openStream 0 []] State.reset) = .next { State.reset with
    nextStreamId := 3
    streams := [(1, ⟨.opened, 0, 65536, 65536, false⟩)]
    trace := [⟨.okId 1, [], [.txBytes [0x80, 0x03, 0x00, 0x01, 0x00, 0x00, 0x00, 0x0a, 0x00, 0x00, 0x00,
      0x01, 0x00, 0x00, 0x00, 0x00, 0x00, 0x00]]⟩] } := of_answers (by decide)
theorem test_resetStream_unknown : step (withInbox [.resetStream 1 5] State.reset) =
    .next { State.reset with trace := [⟨.err .unknownStream, [], []⟩] } := of_answers (by decide)
theorem test_close : step (withInbox [.close 0] State.reset) = .next { State.reset with
    mode := .closed
    goaway := .sent
    trace := [⟨.ok, [], [.txBytes [0x80, 0x03, 0x00, 0x07, 0x00, 0x00, 0x00, 0x08, 0x00, 0x00, 0x00, 0x00,
      0x00, 0x00, 0x00, 0x00], .txClose]⟩] } := of_answers (by decide)
theorem test_unknown_type_skipped :
    step (receiving [0x80, 0x03, 0x00, 0x05, 0xff, 0x00, 0x00, 0x01, 0x00, 0x11] s0) =
      .next { receiving [0x11] s0 with rxOffset := 9 } := of_answers (by decide)

/-! ### The hypotheses of the statements are met -/

theorem witness_DecodeInvertsEncode : ∃ (p : Params) (f : Instr),
    p.wf = true ∧ f.wf p = true ∧ f.tierOk p = true :=
  ⟨p0, .synStream 2 1 1 0 3 [9], by decide⟩

theorem witness_EncodeInvertsDecode : ∃ (p : Params) (F : Bytes) (f : Instr), decode p F = .ok f :=
  ⟨p0, _, _, test_decode_headers⟩

theorem witness_EncodedLength : ∃ (p : Params) (b : Build) (f : Instr) (buf : Bytes),
    f.wf p = true ∧ encode p b f = .bytes buf :=
  ⟨p0, .debug, _, _, by decide, test_encode_settings⟩

theorem witness_EncodedFields : ∃ (p : Params) (b : Build) (f : Instr) (buf : Bytes),
    encode p b f = .bytes buf ∧ (∃ ver, f.ver? = some ver) ∧ (∃ k, f.controlType? = some k) :=
  ⟨p0, .debug, _, _, test_encode_settings, ⟨_, rfl⟩, ⟨_, rfl⟩⟩

/-- A tier at each side of the legacy boundary. -/
theorem witness_EncodeTierPolicy :
    revisionOf p0 2 = some .legacy ∧ (0 : Byte) &&& ~~~p0.controlFlagsMask = 0 ∧
    (Instr.synStream 2 0 1 0 3 []).plen ≤ 0xFFFFFF ∧ (Instr.headers 2 0 1 4 []).plen ≤ 0xFFFFFF ∧
    (3 : Fin 8).val < nTiers .legacy ∧ nTiers .legacy ≤ (4 : Fin 8).val := by decide

theorem witness_EncodeRefusals :
    (Instr.ping 3 4 1).flags &&& ~~~p0.controlFlagsMask ≠ 0 ∧
    ∃ payload : Bytes, (Instr.data 1 3 payload).flags &&& ~~~p0.dataFlagsMask = 0 ∧
      (Instr.data 1 3 payload).plen = 0xFFFFFF + 1 :=
  ⟨by decide, List.replicate (0xFFFFFF + 1) 0, by show (3 : Byte) &&& ~~~p0.dataFlagsMask = 0; decide,
    List.length_replicate⟩

theorem witness_PriorityByteDecodes : p0.wf = true ∧ 10 + ([] : Bytes).length ≤ 0xFFFFFF := by decide

theorem witness_OpcodeMap : ∃ (F : Bytes) (f : Instr), decode p0 F = .ok f :=
  ⟨_, _, test_decode_goaway⟩

abbrev sPing : State := receiving (pingBytes ++ [1, 2]) s0

theorem witness_StepRunsDecodedFrame :
    sPing.phase = .receiving ∧ sPing.mode ≠ .closed ∧ 8 ≤ sPing.rxBuf.length ∧
    8 + headerLength sPing.rxBuf ≤ sPing.cfg.rxBufMax ∧
    8 + headerLength sPing.rxBuf ≤ sPing.rxBuf.length ∧
    decode sPing.cfg.params (sPing.rxBuf.take (8 + headerLength sPing.rxBuf)) = .ok (.ping 3 0 7) := by
  decide

theorem witness_CursorAdvances : ∃ t, step sPing = .next t := exists_next (by decide)

theorem witness_LaterBytesWait : ∃ t, step (receiving pingBytes s0) = .next t ∧
    8 + headerLength pingBytes ≤ pingBytes.length :=
  (exists_next (by decide)).imp fun _ h => ⟨h, by decide⟩

/-- Each clause: an incomplete header, an incomplete payload, a frame one byte over capacity, and a
decode answer of every kind. -/
theorem witness_ReceiveLoop :
    ((receiving (pingBytes.take 7) s0).rxBuf.length < 8) ∧
    ((receiving (pingBytes.take 11) s0).rxBuf.length < 8 + headerLength (pingBytes.take 11) ∧
      8 + headerLength (pingBytes.take 11) ≤ c0.rxBufMax) ∧
    ({ c0 with rxBufMax := 11 }.rxBufMax < 8 + headerLength pingBytes) ∧
    decode p0 [0x80, 0x03, 0x00, 0x05, 0x00, 0x00, 0x00, 0x00] = .error (.unknownFrameType 5) ∧
    decode p0 [0x80, 0x03, 0x00, 0x06, 0x00, 0x00, 0x00, 0x00] =
      .error (.malformed .badPayloadLength) ∧
    decode p0 [0x80, 0x03, 0x00, 0x06, 0x04, 0x00, 0x00, 0x04, 0x00, 0x00, 0x00, 0x00] =
      .error (.illegalBits .flags) ∧
    decode p0 [0x80, 0x04, 0x00, 0x06, 0x00, 0x00, 0x00, 0x00] = .error (.unknownVersion 4) := by
  decide

theorem witness_DispatchChecks :
    ((Instr.ping 2 0 1).ver? = some 2 ∧ (2 : VersionTag) ≠ wireVersion s0.cfg) ∧
    (streamOf (.synReply 3 0 0 []) = some 0 ∧
      (Instr.synReply 3 0 0 []).ver? = some (wireVersion s0.cfg) ∧
      (Instr.synReply 3 0 0 []).controlType? ≠ some .windowUpdate) ∧
    (streamOf (.data 0 0 []) = some 0 ∧ (Instr.data 0 0 []).ver? = none) := by decide

/-- Each clause, the payload at the receive window and one byte over it. -/
theorem witness_DataReceived :
    tableWf s0.streams = true ∧ (9 : StreamId) ≠ 0 ∧ tableGet s0.streams 9 = none ∧
    tableGet s0.streams 3 = some (strm .halfClosedRemote) ∧
    tableGet s0.streams 1 = some (strm .opened) ∧
    tableGet s0.streams 5 = some (strm .halfClosedLocal) ∧
    (strm .opened).recvWindow < ([1, 2, 3, 4, 5] : Bytes).length ∧
    (([1, 2, 3, 4] : Bytes).length : Int) ≤ (strm .opened).recvWindow ∧
    (([1, 2, 3, 4] : Bytes).length : Int) ≤ s0.sessionRecvWindow ∧
    (0 : Byte) &&& p0.flagFin = 0 ∧ (3 : Byte) &&& p0.flagFin ≠ 0 := by decide

theorem tableInv_s0 : TableInv s0 :=
  ⟨by decide, by decide, by decide, by decide, by decide, by decide, by decide, by decide, by decide⟩

/-- Each clause: a local ID in and out of the table, a peer ID at and above the largest seen, the
table at and below the peer limit, with and without FIN. -/
theorem witness_SynStreamReceived :
    TableInv s0 ∧ isLocal s0.cfg.role 1 = true ∧ (tableGet s0.streams 1).isSome = true ∧
    isLocal s0.cfg.role 7 = true ∧ tableGet s0.streams 7 = none ∧
    isLocal s0.cfg.role 2 = false ∧ (2 : StreamId).toNat ≤ s0.lastPeerId.toNat ∧
    isLocal s0.cfg.role 4 = false ∧ s0.lastPeerId.toNat < (4 : StreamId).toNat ∧
    countPeer s0 < s0.cfg.maxPeerStreams ∧ countPeer s0 = 1 ∧
    { c0 with maxPeerStreams := 1 }.maxPeerStreams ≤ countPeer s0 ∧
    (0 : Byte) &&& p0.flagFin = 0 ∧ (1 : Byte) &&& p0.flagFin ≠ 0 :=
  ⟨tableInv_s0, by decide⟩

theorem witness_HeaderFramesReceived :
    wireVersion s0.cfg = 3 ∧ tableWf s0.streams = true ∧ tableGet s0.streams 9 = none ∧
    tableGet s0.streams 3 = some (strm .halfClosedRemote) ∧
    tableGet s0.streams 1 = some (strm .opened) ∧
    tableGet s0.streams 5 = some (strm .halfClosedLocal) ∧
    (2 : Byte) &&& p0.flagFin = 0 ∧ (1 : Byte) &&& p0.flagFin ≠ 0 := by decide

theorem witness_RstStreamReceived :
    (1 : StreamId) ≠ 0 ∧ tableGet s0.streams 9 = none ∧ (tableGet s0.streams 1).isSome = true := by
  decide

/-- The initial window at the largest value that fits, one above the range, and one that overflows a
stream. -/
theorem witness_SettingsReceived :
    (∀ w ∈ windowValues p0 [⟨0, 7, 5⟩, ⟨0, 4, 1⟩, ⟨0, 7, 0x7FFFFFFF⟩], windowFits w s0) ∧
    (0x7FFFFFFF : Credit).val =
      ((windowValues p0 [⟨0, 7, 5⟩, ⟨0, 4, 1⟩, ⟨0, 7, 0x7FFFFFFF⟩]).getLast?.map (·.toNat)).getD
        s0.peerInitialWindow.val ∧
    (7 : SettingsId) ≠ p0.settingsMaxConcurrentStreams ∧ (7 : SettingsId) = p0.settingsInitialWindowSize ∧
    2 ^ 31 - 1 < (0x80000000 : Word32).toNat ∧
    ((0x7FFFFFFF : Word32).toNat ≤ 2 ^ 31 - 1 ∧
      ¬ windowFits 0x7FFFFFFF { s0 with peerInitialWindow := 7 }) := by
  refine ⟨?_, by decide, by decide, by decide, by decide, by decide, ?_⟩
  · simp [windowValues, windowFits, p0, Params.default]
  · rintro ⟨_, h⟩
    have := h (1, strm .opened) (by simp)
    simp at this

/-- Each clause, at the bound and one above it. -/
theorem witness_WindowUpdateReceived :
    s0.sessionSendWindow + (0x7FFFFFF5 : BitVec 31).toNat ≤ 2 ^ 31 - 1 ∧
    2 ^ 31 - 1 < s0.sessionSendWindow + (0x7FFFFFF6 : BitVec 31).toNat ∧
    tableGet s0.streams 9 = none ∧ tableGet s0.streams 1 = some (strm .opened) ∧
    (strm .opened).sendWindow + (0x7FFFFFF7 : BitVec 31).toNat ≤ 2 ^ 31 - 1 ∧
    2 ^ 31 - 1 < (strm .opened).sendWindow + (0x7FFFFFF8 : BitVec 31).toNat := by decide

theorem witness_GoawayReceived :
    tableWf s0.streams = true ∧ s0.sessionSendWindow ≤ 2 ^ 31 - 1 ∧ abortedBy 3 s0 = [5] := by decide

theorem witness_ExecFrame : ∃ t, exec (.data 1 0 [1]) s0 = .next t := exists_next (by decide)

theorem witness_FramesTouchOneStream : ∃ t, streamOf (.data 1 0 [0x61]) = some 1 ∧
    exec (.data 1 0 [0x61]) s0 = .next t ∧ t.mode ≠ .closed ∧ (2 : StreamId) ≠ 1 :=
  ⟨_, rfl, test_data_credit, by decide, by decide⟩

/-- Each clause: a waiting urgent frame, a waiting frame of tier 1 behind empty tier 0, nothing. -/
theorem witness_NextPrecedence :
    ({ s0 with urgent := [.ping 3 0 7] }.urgent = [.ping 3 0 7]) ∧
    (s0.urgent = [] ∧
      (∀ u : Fin 8, u < 1 → (s0.tierq.set 1 [(1, .data 1 0 [])])[u] = []) ∧
      (s0.tierq.set 1 [(1, .data 1 0 [])])[(1 : Fin 8)] = [(1, .data 1 0 [])]) ∧
    (∀ t : Fin 8, s0.tierq[t] = []) := by decide

theorem witness_PurgeReturnsCredit : tableGet s0.streams 1 = some (strm .opened) := by decide

/-- A grant of exactly the credit there is. -/
theorem witness_CreditGate :
    tableGet s0.streams 1 = some (strm .opened) ∧ reserve 1 8 s0 = true ∧ reserve 1 9 s0 = false := by
  decide

/-- The gate's answer for one write: what is left, and the record and the events after it. -/
abbrev gate (sid : StreamId) (bytes : Bytes) (fin : Bool) (s : State) :
    Option Bytes × Option Stream × List Event :=
  let (t, left) := drainWrite (bytes.length + 1) sid bytes fin s
  (left, tableGet t.streams sid, t.events)

/-- Each clause: bytes left when the credit of 8 is used up, an empty write left on a negative window,
and a finished write with FIN on a stream the peer had finished and on an open one. -/
theorem witness_DrainKeepsBytes :
    tableWf s0.streams = true ∧ tableGet s0.streams 3 = some (strm .halfClosedRemote) ∧
    tableGet s0.streams 1 = some (strm .opened) ∧
    gate 3 [1, 2, 3, 4, 5, 6, 7, 8, 9] true s0 =
      (some [9], some { strm .halfClosedRemote with sendWindow := 0 }, []) ∧
    gate 1 [] true { s0 with sessionSendWindow := -1 } = (some [], some (strm .opened), []) ∧
    gate 3 [1] true s0 = (none, none, [.onStreamClosed 3 .normal]) ∧
    gate 1 [1] true s0 =
      (none, some { strm .halfClosedLocal with sendWindow := 7 }, []) := by decide

/-- Several writes: the first of stream 1 stops at its credit, the second stays behind it whole, and
the one of stream 3 between them goes out. -/
abbrev sWalk : State :=
  { s0 with
    sessionSendWindow := 20
    pending := [⟨1, [1, 2, 3, 4, 5, 6, 7, 8, 9], false⟩, ⟨3, [7], true⟩, ⟨1, [10], true⟩] }

theorem witness_DrainKeepsEveryWrite :
    (drain sWalk).pending = [⟨1, [9], false⟩, ⟨1, [10], true⟩] ∧
    (drain sWalk).tierq[(1 : Fin 8)] = [(1, .data 1 0 [1, 2, 3, 4, 5, 6, 7, 8]), (3, .data 3 1 [7])] ∧
    tableGet sWalk.streams 1 = some (strm .opened) ∧ avail 1 (drain sWalk) = some 0 ∧
    (drain sWalk).events = [.onStreamClosed 3 .normal] := by decide

abbrev sSend : State := withInbox [.sendData 1 [1, 2, 3, 4, 5, 6, 7, 8, 9] true] { s0 with txReady := false }

theorem witness_SendOneMoreThanWindow :
    sSend.phase = .idle ∧ sSend.inbox = [.sendData 1 [1, 2, 3, 4, 5, 6, 7, 8, 9] true] ∧
    sSend.mode = .active ∧ sSend.txReady = false ∧ sSend.pending = [] ∧
    tableGet sSend.streams 1 = some (strm .opened) ∧ (strm .opened).localFinQueued = false ∧
    (strm .opened).sendWindow = (8 : Nat) ∧ 0 < 8 ∧ 8 ≤ sSend.cfg.maxDataPayload.val ∧
    ((8 : Nat) : Int) + 1 ≤ sSend.sessionSendWindow ∧
    ([1, 2, 3, 4, 5, 6, 7, 8, 9] : Bytes).length = 8 + 1 := by decide

/-- An open stream, and one whose peer has finished. -/
abbrev sByte (st : StreamState) : State :=
  { s0 with
    streams := [(1, { strm st with sendWindow := 1 })]
    pending := [⟨1, [9], true⟩] }

theorem witness_OneByteReleased :
    tableGet (sByte .opened).streams 1 = some { strm .opened with sendWindow := 1 } ∧
    tableGet (sByte .halfClosedRemote).streams 1 =
      some { strm .halfClosedRemote with sendWindow := 1 } ∧
    0 < s0.cfg.maxDataPayload.val ∧ 0 < (sByte .opened).sessionSendWindow ∧
    (sByte .halfClosedRemote).pending = [⟨1, [9], true⟩] ∧
    (drain (sByte .halfClosedRemote)).events = [.onStreamClosed 1 .normal] := by decide

theorem witness_PumpSendsAll :
    let s := { s0 with urgent := [.goaway (wireVersion s0.cfg) 0 0 0] }
    (∀ f ∈ sendOrder s, Encodable s.cfg f) ∧ s.txReady = true ∧
      { s with txReady := false }.txReady = false := by
  refine ⟨?_, by decide, rfl⟩
  intro f hf
  have : f = .goaway (wireVersion c0) 0 0 0 := by
    simpa [sendOrder, State.ofCfg] using hf
  subst this
  exact ⟨_, encode_goaway c0 _ _ _⟩

theorem witness_EpilogueIdempotent : ∃ t, epilogue s0 = .next t := exists_next (by decide)

/-- Each clause: a session going away that closes, one that stays, an active one, one that is over. -/
theorem witness_GracefulTearDown :
    (∃ t, epilogue { s0 with mode := .goingAway, goaway := .received 0, streams := [] } = .next t ∧
      t.mode = .closed) ∧
    (∃ t, epilogue { s0 with mode := .goingAway, goaway := .received 0 } = .next t) ∧
    (∃ t, epilogue s0 = .next t) ∧ (∃ t, epilogue { s0 with mode := .fault } = .next t) :=
  ⟨⟨{ s0 with mode := .closed, goaway := .received 0, streams := [], tx := [.txClose] },
      of_answers (by decide), by decide⟩,
    exists_next (by decide), exists_next (by decide), exists_next (by decide)⟩

theorem witness_SessionOverRefuses :
    let s := withInbox [.close 0] { s0 with mode := .fault }
    s.phase = .idle ∧ s.inbox = [.close 0] ∧ s.mode = .fault ∧
      (∀ cfg, Command.close 0 ≠ .reset cfg) ∧ { s with mode := .closed }.mode = .closed :=
  ⟨rfl, rfl, rfl, fun _ => by simp, rfl⟩

theorem witness_ResetInstalls : (withInbox [.reset c0] s0).phase = .idle ∧
    (withInbox [.reset c0] s0).inbox = [.reset c0] := by decide

theorem witness_OnBytesBuffers : (withInbox [.onBytes [1]] s0).phase = .idle ∧
    (withInbox [.onBytes [1]] s0).inbox = [.onBytes [1]] ∧
    (withInbox [.onBytes [1]] s0).mode ≠ .closed ∧ (withInbox [.onBytes [1]] s0).mode ≠ .fault := by
  decide

theorem tableInv_inbox (cs : List Command) : TableInv (withInbox cs s0) :=
  ⟨tableInv_s0.1, tableInv_s0.2, tableInv_s0.3, tableInv_s0.4, tableInv_s0.5, tableInv_s0.6,
    tableInv_s0.7, tableInv_s0.8, tableInv_s0.9⟩

theorem longBytes (n : Nat) : ∃ hb : Bytes, 10 + hb.length = 10 + n :=
  ⟨List.replicate n 0, congrArg (10 + ·) List.length_replicate⟩

/-- Each clause: a next ID above and at the peer's last-good ID, the priority at and below the number
of tiers, the last ID there is and the one after it, a limit reached and not reached, the longest
header block and one byte more. -/
theorem witness_OpenStream :
    TableInv (withInbox [.openStream 7 []] s0) ∧ s0.phase = .idle ∧ s0.mode ≠ .closed ∧
    s0.mode ≠ .fault ∧ (6 : StreamId).toNat < s0.nextStreamId ∧ s0.nextStreamId ≤ (7 : StreamId).toNat ∧
    nTiers s0.cfg.version ≤ 8 ∧ 7 < nTiers s0.cfg.version ∧ s0.cfg.build = .release ∧
    (7 : StreamId).toNat = s0.nextStreamId ∧ (7 : Fin 8).val = min 7 (nTiers s0.cfg.version - 1) ∧
    (7 : Fin 8).val = min 8 (nTiers s0.cfg.version - 1) ∧
    ¬ 0x7FFFFFFF < (0x7FFFFFFF : StreamId).toNat ∧ 0x7FFFFFFF < 0x80000001 ∧
    (3 : Word32).toNat ≤ countLocal s0 ∧ ¬ (4 : Word32).toNat ≤ countLocal s0 ∧
    (∃ hb : Bytes, 10 + hb.length = 0xFFFFFF) ∧ (∃ hb : Bytes, 10 + hb.length = 0xFFFFFF + 1) :=
  ⟨tableInv_inbox _, by decide, by decide, by decide, by decide, by decide, by decide, by decide,
    by decide, by decide, by decide, by decide, by decide, by decide, by decide, by decide,
    longBytes 0xFFFFF5, longBytes 0xFFFFF6⟩

/-- Each clause: no record, a half-closed-local stream, an open one. -/
theorem witness_SendData :
    (withInbox [.sendData 1 [] true] s0).inbox = [.sendData 1 [] true] ∧ s0.phase = .idle ∧
    s0.mode ≠ .closed ∧ s0.mode ≠ .fault ∧ tableGet s0.streams 9 = none ∧
    tableGet s0.streams 5 = some (strm .halfClosedLocal) ∧
    tableGet s0.streams 1 = some (strm .opened) ∧ (strm .opened).localFinQueued = false := by decide

theorem witness_ResetStream :
    (withInbox [.resetStream 1 5] s0).inbox = [.resetStream 1 5] ∧ s0.phase = .idle ∧
    s0.mode ≠ .closed ∧ s0.mode ≠ .fault ∧ tableGet s0.streams 9 = none ∧
    (tableGet s0.streams 1).isSome = true := by decide

theorem witness_Close : (withInbox [.close 5] s0).inbox = [.close 5] ∧ s0.phase = .idle ∧
    s0.mode ≠ .closed ∧ s0.mode ≠ .fault := by decide

theorem witness_TransportSignals :
    (withInbox [.transportBlocked] s0).inbox = [.transportBlocked] ∧
    (withInbox [.transportWritable] s0).inbox = [.transportWritable] ∧ s0.phase = .idle ∧
    s0.mode ≠ .closed ∧ s0.mode ≠ .fault := by decide

/-! ### The invariants have a state with streams in it, and a step -/

/-- A command that goes through the epilogue. -/
abbrev sStep : State := withInbox [.sendData 1 [7] false] s0

theorem witness_TableInvKept : TableInv sStep ∧ ∃ t, step sStep = .next t :=
  ⟨tableInv_inbox _, exists_next (by decide)⟩

theorem windows (e : StreamId × Stream) (he : e ∈ s0.streams) :
    StreamWindows s0.cfg s0.peerInitialWindow.val e.2 := by
  simp only [List.mem_cons, List.not_mem_nil, or_false] at he
  rcases he with rfl | rfl | rfl | rfl <;>
    exact ⟨by decide, by decide, by decide, by decide, by decide⟩

theorem witness_WindowInvKept : TableInv sStep ∧ WindowInv sStep ∧ ∃ t, step sStep = .next t :=
  ⟨tableInv_inbox _, ⟨by decide, by decide, by decide, windows⟩, exists_next (by decide)⟩

theorem configInv_s0 (cs : List Command) (h : ∀ c, Command.reset c ∉ cs) :
    ConfigInv (withInbox cs s0) :=
  ⟨show c0.wf = true by decide, fun c hc => absurd hc (h c)⟩

theorem queueInv_sStep : QueueInv sStep :=
  ⟨configInv_s0 _ (by simp), fun f hf => (by cases hf), by
    intro q hq e he
    have : q = [] := by
      have hq' : q ∈ emptyQueues.toList := hq
      simpa using hq'
    rw [this] at he
    exact absurd he (by simp)⟩

theorem witness_QueueInvKept : QueueInv sStep ∧ ∃ t, step sStep = .next t :=
  ⟨queueInv_sStep, exists_next (by decide)⟩

theorem sessionInv_sStep : SessionInv sStep :=
  ⟨by decide, by decide, by decide, by decide, by decide, by decide, by decide,
    fun _ => .inl (by decide), by decide⟩

theorem witness_SessionInvKept : SessionInv sStep ∧ ∃ t, step sStep = .next t :=
  ⟨sessionInv_sStep, exists_next (by decide)⟩

/-- A write that waits for credit. -/
abbrev sPend : State :=
  { sStep with
    streams := [(1, { strm .opened with sendWindow := 0, localFinQueued := true })]
    pending := [⟨1, [9], true⟩] }

theorem pendingInv_sPend : PendingInv sPend := by
  refine ⟨⟨by decide, fun c hc => absurd hc (by simp)⟩, ?_, by decide, by decide, by decide, ?_⟩
  · intro w hw
    have : w = ⟨1, [9], true⟩ := by simpa using hw
    subst this
    exact ⟨_, rfl, by decide, by decide⟩
  · intro _ before w after h _
    right
    have hw : w ∈ sPend.pending := by rw [h]; simp
    have : w = ⟨1, [9], true⟩ := by simpa using hw
    subst this
    exact ⟨0, by decide, by decide⟩

theorem witness_PendingInvKept : PendingInv sPend ∧ ∃ t, step sPend = .next t :=
  ⟨pendingInv_sPend, exists_next (by decide)⟩

abbrev sTier : State :=
  { sStep with
    txReady := false
    tierq := emptyQueues.set 1 [(1, .data 1 0 [1])] }

theorem witness_TierInvKept : TableInv sTier ∧ TierInv sTier ∧ ∃ t, step sTier = .next t := by
  refine ⟨⟨by decide, by decide, by decide, by decide, by decide, by decide, by decide, by decide,
    by decide⟩, ⟨?_, by decide, ?_⟩, exists_next (by decide)⟩
  · have h : ∀ t : Fin 8, ∀ e ∈ sTier.tierq[t],
        (tableGet sTier.streams e.1).all (fun r => decide (r.tier = t)) = true := by decide
    intro t e he r hr
    have h2 := h t e he
    rw [hr] at h2
    simpa using h2
  · intro sid r h
    have := mem_of_tableGet h
    simp only [List.mem_cons, List.not_mem_nil, or_false, Prod.mk.injEq] at this
    rcases this with ⟨rfl, _⟩ | ⟨rfl, _⟩ | ⟨rfl, _⟩ | ⟨rfl, _⟩ <;> decide

theorem witness_RevisionInvKept : RevisionInv sStep ∧ ∃ t, step sStep = .next t :=
  ⟨⟨configInv_s0 _ (by simp), by decide, by decide⟩, exists_next (by decide)⟩

theorem witness_InvariantsAtReset : Cfg.default.wf = true ∧ c0.wf = true := by decide

theorem witness_StepNeverStops : QueueInv sStep := queueInv_sStep

theorem witness_ModeChanges : SessionInv sStep ∧ resetsNext sStep = false ∧ ∃ t, step sStep = .next t :=
  ⟨sessionInv_sStep, by decide, exists_next (by decide)⟩

theorem witness_RemovedIdStaysRemoved : TableInv sStep ∧ resetsNext sStep = false ∧
    (∃ t, step sStep = .next t) ∧ usedId sStep 1 = true ∧
    (usedId { sStep with streams := [] } 1 = true ∧ tableGet [] (1 : StreamId) = none) :=
  ⟨tableInv_inbox _, by decide, exists_next (by decide), by decide, by decide⟩

theorem witness_ClosedExactlyOnce :
    TableInv (withInbox [.resetStream 1 5] s0) ∧ resetsNext (withInbox [.resetStream 1 5] s0) = false ∧
    ∃ t, step (withInbox [.resetStream 1 5] s0) = .next t :=
  ⟨tableInv_inbox _, by decide, exists_next (by decide)⟩

/-- Each clause: a session that is over, one that closes, one that stays. -/
theorem witness_TransportClosedOnce :
    (∃ t, step (withInbox [.close 5] { s0 with mode := .closed }) = .next t) ∧
    (∃ t, step (withInbox [.close 0] State.reset) = .next t ∧ t.mode = .closed) ∧
    (∃ t, step sStep = .next t) ∧ resetsNext sStep = false ∧
    resetsNext (withInbox [.close 0] State.reset) = false :=
  ⟨exists_next (by decide), ⟨_, test_close, rfl⟩, exists_next (by decide), by decide, by decide⟩

/-- A Reset after frames went out, and a step that sends one. -/
theorem witness_TransmitStreamGrows :
    resetsNext (withInbox [.reset c0] { s0 with trace := [⟨.ok, [], [.txBytes [1]]⟩] }) = true ∧
    (∃ t, step (withInbox [.reset c0] { s0 with trace := [⟨.ok, [], [.txBytes [1]]⟩] }) = .next t) ∧
    resetsNext sStep = false ∧
    ∃ t, step sStep = .next t ∧ transmitStream t = [0, 0, 0, 1, 0, 0, 0, 1, 7] :=
  ⟨by decide, exists_next (by decide), by decide, exists_stream (by decide)⟩

end Sys2Proof.Tests
end

section
/-! PROOF. A well-headed buffer decodes to what stands behind its header: the two laws that read the
8 header bytes (R91, R92) once, and the spec's words (O11) as uses of them. -/

namespace Sys2Proof

open Machine

/-! ### Reading the header of a frame -/

@[simp] theorem controlHeader_length (ver : VersionTag) (typ : TypeCode) (flags : Byte) (n : Nat) :
    (controlHeader ver typ flags n).length = 8 := by simp [controlHeader]

@[simp] theorem dataHeader_length (sid : StreamId) (flags : Byte) (n : Nat) :
    (dataHeader sid flags n).length = 8 := by simp [dataHeader]

/-- A field written between `A` and `C` is read back at its offset (R11). -/
theorem memRead_beBytes {A C F : Bytes} {off n v : Nat} (hF : F = A ++ (beBytes n v ++ C))
    (ho : off = A.length) (hv : v < 256 ^ n) : memRead F off n = .ok v := by
  rw [memRead_at hF ho (beBytes_length n v).symm, beValue_beBytes_lt hv]

/-- A field is its high bytes before its low bytes (R11). -/
theorem beBytes_add (m n v : Nat) : beBytes (m + n) v = beBytes m (v / 256 ^ n) ++ beBytes n v := by
  induction m with
  | zero => simp [beBytes]
  | succ m ih =>
    rw [Nat.add_right_comm, beBytes, beBytes, ih, Nat.div_div_eq_div_mul, ← pow_add,
      Nat.add_comm n m, List.cons_append]

/-- The control bit (R91) is set above a 15-bit version tag. -/
theorem testBit_controlWord (ver : VersionTag) : (0x8000 + ver.toNat).testBit 15 = true := by
  have h := Nat.testBit_two_pow_add_eq ver.toNat 15
  rwa [Nat.testBit_lt_two_pow ver.isLt] at h

/-- The version tag is what the control bit leaves of its word (R91). -/
theorem ofNat_controlWord (ver : VersionTag) : BitVec.ofNat 15 (0x8000 + ver.toNat) = ver := by
  apply BitVec.eq_of_toNat_eq
  have := ver.isLt
  rw [BitVec.toNat_ofNat]
  omega

/-- A buffer under the header of a control frame is decoded by `decodeControl` with the header's own
fields (R91, R142). -/
theorem decode_controlHeader {p : Params} {F payload : Bytes} {ver : VersionTag} {typ : TypeCode}
    {flags : Byte} (hF : F = controlHeader ver typ flags payload.length ++ payload)
    (hlen : payload.length ≤ maxPayload) :
    decode p F = decodeControl p F ver typ flags payload.length := by
  have hver := ver.isLt
  have h01 : memRead F 0 2 = .ok (0x8000 + ver.toNat) :=
    memRead_beBytes (A := []) (by simp [hF, controlHeader]; rfl) rfl (by omega)
  have htyp : memRead F 2 2 = .ok typ.toNat :=
    memRead_beBytes (A := beBytes 2 (0x8000 + ver.toNat)) (by simp [hF, controlHeader]; rfl)
      (by simp) typ.isLt
  have hflags : memRead F 4 1 = .ok flags.toNat :=
    memRead_beBytes (A := beBytes 2 (0x8000 + ver.toNat) ++ beBytes 2 typ.toNat)
      (by simp [hF, controlHeader]; rfl) (by simp) flags.isLt
  have hlength : memRead F 5 3 = .ok payload.length :=
    memRead_beBytes
      (A := beBytes 2 (0x8000 + ver.toNat) ++ beBytes 2 typ.toNat ++ beBytes 1 flags.toNat)
      (C := payload) (by simp [hF, controlHeader]) (by simp) (Nat.lt_succ_of_le hlen)
  have hlong : ¬ F.length < 8 := by simp [hF]
  simp only [decode, hlong, if_false, h01, htyp, hflags, hlength, bind, Except.bind,
    testBit_controlWord, if_true, ofNat_controlWord, BitVec.ofNat_toNat, BitVec.setWidth_eq]

/-- A control frame of a known version and type, with legal flags and a legal length, decodes to its
body (R143 to R147). -/
theorem decode_controlFrame {p : Params} (hp : p.wf = true) {F payload : Bytes} {r : Revision}
    {k : ControlType} {flags : Byte}
    (hF : F = controlHeader (versionTag p r) (p.typeCode k) flags payload.length ++ payload)
    (hlen : payload.length ≤ maxPayload) (hmask : withinMask (flagsMask p true) flags = true)
    (hlegal : lengthLegal F payload.length k = .ok true) :
    decode p F = decodeBody F (versionTag p r) r flags k := by
  obtain ⟨hvers, hcodes, -⟩ := Params.wf_iff.1 hp
  have hrest : F.length - 8 = payload.length := by simp [hF]
  rw [decode_controlHeader hF hlen]
  simp [decodeControl, revisionOf_versionTag hvers, controlTypeOf_typeCode hcodes, hmask, hrest,
    hlegal, bind, Except.bind]

/-- A data frame with legal flags decodes to its stream, flags and payload (R92, R148). -/
theorem decode_dataFrame {p : Params} {F payload : Bytes} {sid : StreamId} {flags : Byte}
    (hF : F = dataHeader sid flags payload.length ++ payload)
    (hlen : payload.length ≤ maxPayload) (hmask : withinMask (flagsMask p false) flags = true) :
    decode p F = .ok (.data sid flags payload) := by
  have hsid := sid.isLt
  have hword : memRead F 0 4 = .ok sid.toNat :=
    memRead_beBytes (A := []) (by simp [hF, dataHeader]; rfl) rfl (by omega)
  have hhigh : sid.toNat / 256 ^ 2 < 2 ^ 15 := by omega
  have h01 : memRead F 0 2 = .ok (sid.toNat / 256 ^ 2) :=
    memRead_beBytes (A := []) (by simp [hF, dataHeader, beBytes_add 2 2]; rfl) rfl (by omega)
  have hbit := Nat.testBit_lt_two_pow hhigh
  have hflags : memRead F 4 1 = .ok flags.toNat :=
    memRead_beBytes (A := beBytes 4 sid.toNat) (by simp [hF, dataHeader]; rfl) (by simp) flags.isLt
  have hlength : memRead F 5 3 = .ok payload.length :=
    memRead_beBytes (A := beBytes 4 sid.toNat ++ beBytes 1 flags.toNat)
      (C := payload) (by simp [hF, dataHeader]) (by simp) (Nat.lt_succ_of_le hlen)
  have hlong : ¬ F.length < 8 := by simp [hF]
  have hrest : F.length - 8 = payload.length := by simp [hF]
  have hdrop : F.drop 8 = payload := by simp [hF]
  simp only [decode, hlong, if_false, h01, hword, hflags, hlength, bind, Except.bind, hbit,
    Bool.false_eq_true, BitVec.ofNat_toNat, BitVec.setWidth_eq]
  simp [decodeData, hmask, hrest, hdrop]

/-! ### The words of the spec -/

/-- A word without flags, under the presumed constants of R9: its first 8 bytes are the header of its
kind, and it decodes to what its body reads. -/
theorem decode_defaultWord (r : Revision) (k : ControlType) {F : Bytes} {f : Instr}
    (hhead : F.take 8
      = controlHeader (versionTag .default r) (Params.default.typeCode k) 0 (F.drop 8).length)
    (hlen : (F.drop 8).length ≤ maxPayload) (hlegal : lengthLegal F (F.drop 8).length k = .ok true)
    (hbody : decodeBody F (versionTag .default r) r 0 k = .ok f) :
    decode .default F = .ok f := by
  have hF := (List.take_append_drop 8 F).symm
  rw [hhead] at hF
  rw [decode_controlFrame Params.default_wf hF hlen (withinMask_zero _) hlegal, hbody]

/-- Settles O11: each word is the header of its kind before a payload of a legal length, and its body
reads as the frame says; what is left to evaluate is the 8 header bytes and the body. -/
theorem specWordsDecode : Obligations.SpecWordsDecode := by
  unfold Obligations.SpecWordsDecode
  refine ⟨decode_dataFrame rfl ?_ ?_,
    decode_defaultWord .legacy .synStream ?_ ?_ ?_ ?_,
    decode_defaultWord .newer .synReply ?_ ?_ ?_ ?_,
    decode_defaultWord .newer .rstStream ?_ ?_ ?_ ?_,
    decode_defaultWord .newer .settings ?_ ?_ ?_ ?_,
    decode_defaultWord .newer .ping ?_ ?_ ?_ ?_,
    decode_defaultWord .newer .goaway ?_ ?_ ?_ ?_,
    decode_defaultWord .newer .headers ?_ ?_ ?_ ?_,
    decode_defaultWord .newer .windowUpdate ?_ ?_ ?_ ?_⟩
  all_goals decide

end Sys2Proof
end

section
/-! PROOF. The table of decode errors (R150). `errorOf` reads the error off an answer, so that the
table is an equation, `errorOf (decode p F) = decodeVerdict p F`; it is proved read by read: the
reserved bits, the length of the type, rows 4 to 6, the version and type, the header. -/

namespace Sys2Proof

open Machine

/-! ### The error of an answer -/

/-- The error an answer raises, if it raises one. -/
def errorOf {ε α : Type} : Except ε α → Option ε
  | .error e => some e
  | .ok _ => none

@[simp] theorem errorOf_error {ε α : Type} (e : ε) : errorOf (.error e : Except ε α) = some e := rfl

@[simp] theorem errorOf_ok {ε α : Type} (a : α) : errorOf (.ok a : Except ε α) = none := rfl

theorem errorOf_eq_some {ε α : Type} {x : Except ε α} {e : ε} :
    errorOf x = some e ↔ x = .error e := by
  cases x <;> simp

theorem errorOf_eq_none {ε α : Type} {x : Except ε α} : errorOf x = none ↔ ∃ a, x = .ok a := by
  cases x <;> simp

/-- Of two steps in a row, the first one that raises gives the error. -/
theorem errorOf_bind {ε α β : Type} {x : Except ε α} {f : α → Except ε β} {e v : Option ε}
    (hx : errorOf x = e) (hf : ∀ a, x = .ok a → errorOf (f a) = v) :
    errorOf (x >>= f) = e.or v := by
  subst hx
  cases x with
  | error e => rfl
  | ok a => exact hf a rfl

/-- A step that does not raise leaves the error to the next one. -/
theorem errorOf_bind_of_none {ε α β : Type} {x : Except ε α} {f : α → Except ε β} {v : Option ε}
    (hx : errorOf x = none) (hf : ∀ a, x = .ok a → errorOf (f a) = v) : errorOf (x >>= f) = v := by
  rw [errorOf_bind hx hf, Option.none_or]

/-- A check that raises `e` gives that error, and otherwise leaves it to what follows. -/
theorem errorOf_raise {ε α : Type} {P Q : Prop} [Decidable P] [Decidable Q] (hPQ : P ↔ Q) (e : ε)
    {x : Except ε α} {v : Option ε} (hx : ¬ P → errorOf x = v) :
    errorOf (if P then .error e else x) = if Q then some e else v := by
  by_cases hP : P
  · rw [if_pos hP, if_pos (hPQ.1 hP), errorOf_error]
  · rw [if_neg hP, if_neg (fun hQ => hP (hPQ.2 hQ)), hx hP]

/-! ### Bits outside a mask, and the first byte of a field -/

theorem not_withinMask_iff {mask flags : Byte} :
    ¬ withinMask mask flags = true ↔ flags &&& ~~~mask ≠ 0 := by
  rw [withinMask, decide_eq_true_iff]

/-- A field of a buffer starts with the byte at its offset. -/
theorem take_drop_eq_byteAt_cons {F : Bytes} {off : Nat} (n : Nat) (h : off < F.length) :
    (F.drop off).take (n + 1) = byteAt F off :: (F.drop (off + 1)).take n := by
  rw [List.drop_eq_getElem_cons h, List.take_succ_cons, byteAt, List.getD_eq_getElem _ _ h]

/-- A one-byte read answers the byte at its offset. -/
theorem memRead_one {F : Bytes} {off : Nat} (h : off < F.length) :
    memRead F off 1 = .ok (byteAt F off).toNat := by
  rw [memRead_of_le h, take_drop_eq_byteAt_cons 0 h]
  simp [beValue_cons]

/-- Bit 7 of a byte is what the mask `0x80` leaves of it. -/
theorem testBit_seven_iff (b : Byte) : b.toNat.testBit 7 = true ↔ b &&& 0x80 ≠ 0 := by
  have h : (b &&& 0x80) = _ := BitVec.and_twoPow b 7
  rw [h, ← BitVec.getLsbD]
  cases b.getLsbD 7 <;> decide

/-- The top bit of a big-endian field is bit 7 of its first byte (R11). -/
theorem testBit_field_iff {F : Bytes} {off n : Nat} (h : off + (n + 1) ≤ F.length) :
    (beValue ((F.drop off).take (n + 1))).testBit (8 * n + 7) = true
      ↔ byteAt F off &&& 0x80 ≠ 0 := by
  have hlow : ((F.drop (off + 1)).take n).length = n := by simp; omega
  have hlt := beValue_lt ((F.drop (off + 1)).take n)
  rw [← testBit_seven_iff, take_drop_eq_byteAt_cons n (by omega), beValue_cons, Nat.mul_comm]
  rw [hlow, show 256 = 2 ^ 8 from rfl, ← pow_mul] at hlt ⊢
  rw [Nat.testBit_two_pow_mul_add _ hlt, if_neg (by omega), Nat.add_sub_cancel_left]

/-! ### The checked reads, as rows of R110 -/

/-- What one row of `reservedBits` raises. -/
def reservedError (F : Bytes) (x : Nat × Byte × IllegalBitsSub) : Option DecodeError :=
  if byteAt F x.1 &&& x.2.1 ≠ 0 then some (.illegalBits x.2.2) else none

/-- The first violated row is found by trying the rows one after the other. -/
theorem map_firstReserved (r : Revision) (k : ControlType) (F : Bytes) :
    (firstReserved r k F).map DecodeError.illegalBits
      = (reservedBits r k).foldr (fun x v => (reservedError F x).or v) none := by
  unfold firstReserved
  induction reservedBits r k with
  | nil => rfl
  | cons x xs ih =>
    rw [List.foldr_cons, ← ih, reservedError]
    by_cases hx : byteAt F x.1 &&& x.2.1 ≠ 0
    · rw [if_pos hx, List.find?_cons, decide_eq_true hx]
      rfl
    · rw [if_neg hx, List.find?_cons, decide_eq_false hx]
      rfl

theorem errorOf_memRead {F : Bytes} {off n : Nat} (h : off + n ≤ F.length) :
    errorOf (memRead F off n) = none := by
  rw [memRead_of_le h, errorOf_ok]

theorem errorOf_readWord {F : Bytes} {off : Nat} (h : off + 4 ≤ F.length) :
    errorOf (readWord F off) = none :=
  errorOf_bind_of_none (errorOf_memRead h) fun _ _ => rfl

theorem errorOf_readStreamId {F : Bytes} {off : Nat} (h : off + 4 ≤ F.length) :
    errorOf (readStreamId F off) = reservedError F (off, 0x80, .streamIdHighBit) := by
  rw [readStreamId, memRead_of_le h]
  exact errorOf_raise (testBit_field_iff (n := 3) h) _ fun _ => rfl

theorem errorOf_readDelta {F : Bytes} {off : Nat} (h : off + 4 ≤ F.length) :
    errorOf (readDelta F off) = reservedError F (off, 0x80, .reserved) := by
  rw [readDelta, memRead_of_le h]
  exact errorOf_raise (testBit_field_iff (n := 3) h) _ fun _ => rfl

theorem errorOf_readTier {F : Bytes} {off : Nat} (r : Revision) (h : off < F.length) :
    errorOf (readTier F r off) = reservedError F (off, ~~~priMask r, .reserved) := by
  rw [readTier, memRead_one h]
  simp only [bind, Except.bind, BitVec.ofNat_toNat, BitVec.setWidth_eq]
  rw [← ite_not]
  exact errorOf_raise not_withinMask_iff _ fun _ => rfl

theorem errorOf_readZero {F : Bytes} {off : Nat} (h : off < F.length) :
    errorOf (readZero F off) = reservedError F (off, 0xFF, .reserved) := by
  have hmask : (byteAt F off).toNat ≠ 0 ↔ byteAt F off &&& 0xFF ≠ 0 := by
    rw [show byteAt F off &&& 0xFF = byteAt F off from BitVec.and_allOnes, ne_eq, ne_eq,
      ← BitVec.toNat_inj]
    rfl
  rw [readZero, memRead_one h]
  exact errorOf_raise hmask _ fun _ => rfl

theorem errorOf_readEntries {F : Bytes} {count off : Nat} (h : off + 8 * count ≤ F.length) :
    errorOf (readEntries F count off) = none := by
  induction count generalizing off with
  | zero => rfl
  | succ count ih =>
    exact errorOf_bind_of_none (errorOf_memRead (by omega)) fun _ _ =>
      errorOf_bind_of_none (errorOf_memRead (by omega)) fun _ _ =>
      errorOf_bind_of_none (errorOf_memRead (by omega)) fun _ _ =>
      errorOf_bind_of_none (ih (by omega)) fun _ _ => rfl

/-! ### Rows 7 and 8: the length of the type and the reserved bits -/

/-- The length check answers, and answers what the table of R146 says: the SETTINGS count is in the
buffer whenever it is read. -/
theorem lengthLegal_eq {F : Bytes} {n : Nat} (hlen : F.length = 8 + n) (k : ControlType) :
    lengthLegal F n k = .ok (lengthAllowed F n k) := by
  cases k with
  | settings =>
    rw [lengthLegal, lengthAllowed]
    split
    · next hn =>
      rw [memRead_of_le (by omega)]
      exact congrArg Except.ok (decide_eq_decide.2 (by omega))
    · next hn => exact congrArg Except.ok (decide_eq_false (by omega)).symm
  | synStream | synReply | rstStream | ping | goaway | headers | windowUpdate => rfl

/-- On a buffer of a legal length the fields of the body are all there, and the reads raise the
first violated row of R110 (R147, R149). -/
theorem errorOf_decodeBody {F : Bytes} {n : Nat} {k : ControlType} (ver : VersionTag) (r : Revision)
    (flags : Byte) (hlen : F.length = 8 + n) (hok : lengthAllowed F n k = true) :
    errorOf (decodeBody F ver r flags k) = (firstReserved r k F).map .illegalBits := by
  rw [map_firstReserved]
  cases k <;> replace hok := of_decide_eq_true hok
  case synStream =>
    exact errorOf_bind (errorOf_readStreamId (by omega)) fun _ _ =>
      errorOf_bind (errorOf_readStreamId (by omega)) fun _ _ =>
      errorOf_bind (errorOf_readTier r (by omega)) fun _ _ =>
      errorOf_bind (errorOf_readZero (by omega)) fun _ _ => rfl
  case synReply => exact errorOf_bind (errorOf_readStreamId (by omega)) fun _ _ => rfl
  case rstStream | goaway =>
    exact errorOf_bind (errorOf_readStreamId (by omega)) fun _ _ =>
      errorOf_bind_of_none (errorOf_readWord (by omega)) fun _ _ => rfl
  case settings =>
    refine errorOf_bind_of_none (errorOf_memRead (by omega)) fun count hcount => ?_
    obtain ⟨-, rfl⟩ := memRead_eq_ok.1 hcount
    exact errorOf_bind_of_none (errorOf_readEntries (by omega)) fun _ _ => rfl
  case ping => exact errorOf_bind_of_none (errorOf_readWord (by omega)) fun _ _ => rfl
  case headers =>
    exact errorOf_bind (errorOf_readStreamId (by omega)) fun _ _ =>
      errorOf_bind (errorOf_readTier r (by omega)) fun _ _ =>
      errorOf_bind (errorOf_readZero (by omega)) fun _ _ => rfl
  case windowUpdate =>
    exact errorOf_bind (errorOf_readStreamId (by omega)) fun _ _ =>
      errorOf_bind (errorOf_readDelta (by omega)) fun _ _ => rfl

/-! ### Rows 4 to 6: the flags and the length against the buffer -/

/-- Past the header, both classes check the flags and the buffer's length in this order; what comes
after these checks sees a buffer of exactly `8 + length` bytes (R144, R145). -/
theorem errorOf_flagsAndLength {F : Bytes} (mask : Byte) {x : Except DecodeError Instr}
    {rest : Option DecodeError} (hx : F.length = 8 + headerLength F → errorOf x = rest)
    (h8 : 8 ≤ F.length) :
    errorOf (if ¬ withinMask mask (byteAt F 4) then .error (.illegalBits .flags)
      else if F.length - 8 < headerLength F then .error (.malformed .lengthExceedsBuffer)
      else if headerLength F < F.length - 8 then .error (.malformed .truncated)
      else x) = verdictBody mask F rest := by
  exact errorOf_raise not_withinMask_iff _ fun _ =>
    errorOf_raise (by omega) _ fun hfits =>
    errorOf_raise (by omega) _ fun hwhole => hx (by omega)

theorem errorOf_decodeData (p : Params) {F : Bytes} (sid : StreamId) (h8 : 8 ≤ F.length) :
    errorOf (decodeData p F sid (byteAt F 4) (headerLength F))
      = verdictBody p.dataFlagsMask F none :=
  errorOf_flagsAndLength p.dataFlagsMask (fun _ => rfl) h8

/-! ### Rows 2 and 3: the version and the type -/

theorem decodeControl_of_unknownVersion {p : Params} {F : Bytes} {ver : VersionTag} {typ : TypeCode}
    {flags : Byte} {n : Nat} (hver : revisionOf p ver = none) :
    decodeControl p F ver typ flags n = .error (.unknownVersion ver) := by
  rw [decodeControl, hver]

theorem decodeControl_of_unknownType {p : Params} {F : Bytes} {ver : VersionTag} {typ : TypeCode}
    {flags : Byte} {n : Nat} {r : Revision} (hver : revisionOf p ver = some r)
    (htyp : controlTypeOf p typ = none) :
    decodeControl p F ver typ flags n = .error (.unknownFrameType typ) := by
  simp only [decodeControl, hver, htyp]

/-- A control frame of a known version and type: rows 4 to 8. -/
theorem errorOf_decodeControl_known {p : Params} {F : Bytes} {ver : VersionTag} {typ : TypeCode}
    {r : Revision} {k : ControlType} (hver : revisionOf p ver = some r)
    (htyp : controlTypeOf p typ = some k) (h8 : 8 ≤ F.length) :
    errorOf (decodeControl p F ver typ (byteAt F 4) (headerLength F))
      = verdictBody p.controlFlagsMask F
          (if ¬ lengthAllowed F (headerLength F) k then some (.malformed .badPayloadLength)
            else (firstReserved r k F).map .illegalBits) := by
  simp only [decodeControl, hver, htyp]
  refine errorOf_flagsAndLength p.controlFlagsMask (fun hlen => ?_) h8
  rw [lengthLegal_eq hlen]
  cases hok : lengthAllowed F (headerLength F) k with
  | false => rfl
  | true => exact errorOf_decodeBody ver r _ hlen hok

/-! ### The table -/

/-- The version field is its 16-bit word without the control bit (R91). -/
theorem ofNat_sub_controlBit {w : Nat} (h : w.testBit 15 = true) :
    BitVec.ofNat 15 (w - 0x8000) = BitVec.ofNat 15 w := by
  have := Nat.ge_two_pow_of_testBit h
  apply BitVec.eq_of_toNat_eq
  simp only [BitVec.toNat_ofNat]
  omega

/-- Past its length check, decode is one of its two classes on the fields of the header (R141,
R142). -/
theorem decode_of_header (p : Params) {F : Bytes} (h8 : 8 ≤ F.length) :
    decode p F =
      if byteAt F 0 &&& 0x80 = 0 then
        decodeData p F (BitVec.ofNat 31 (beValue (F.take 4))) (byteAt F 4) (headerLength F)
      else decodeControl p F (BitVec.ofNat 15 (beValue (F.take 2) - 0x8000))
        (BitVec.ofNat 16 (beValue ((F.drop 2).take 2))) (byteAt F 4) (headerLength F) := by
  have hbit : (beValue (F.take 2)).testBit 15 = true ↔ byteAt F 0 &&& 0x80 ≠ 0 :=
    testBit_field_iff (off := 0) (n := 1) (by omega)
  rw [decode, if_neg (by omega), memRead_of_le (off := 0) (n := 2) (by omega),
    memRead_one (off := 4) (by omega), memRead_of_le (off := 5) (n := 3) (by omega),
    memRead_of_le (off := 2) (n := 2) (by omega), memRead_of_le (off := 0) (n := 4) (by omega)]
  simp only [bind, Except.bind, List.drop_zero, BitVec.ofNat_toNat, BitVec.setWidth_eq]
  by_cases hctl : byteAt F 0 &&& 0x80 = 0
  · rw [if_neg (fun h => hbit.1 h hctl), if_pos hctl]
    rfl
  · rw [if_pos (hbit.2 hctl), if_neg hctl, ofNat_sub_controlBit (hbit.2 hctl)]
    rfl

/-- The error of decode is what the table of R150 says. -/
theorem errorOf_decode (p : Params) (F : Bytes) : errorOf (decode p F) = decodeVerdict p F := by
  rw [decodeVerdict]
  by_cases hshort : F.length < 8
  · rw [if_pos hshort, decode, if_pos hshort, errorOf_error]
  have h8 : 8 ≤ F.length := by omega
  rw [if_neg hshort, decode_of_header p h8]
  by_cases hctl : byteAt F 0 &&& 0x80 = 0
  · rw [if_pos hctl, if_pos hctl, errorOf_decodeData p _ h8]
  rw [if_neg hctl, if_neg hctl]
  extract_lets ver typ
  cases hver : revisionOf p ver with
  | none => rw [decodeControl_of_unknownVersion hver, errorOf_error]
  | some r =>
    cases htyp : controlTypeOf p typ with
    | none => rw [decodeControl_of_unknownType hver htyp, errorOf_error]
    | some k => exact errorOf_decodeControl_known hver htyp h8

/-- Settles O3: the table as an equation, read as "that error" or "some frame". -/
theorem decodePrecedence : Obligations.DecodePrecedence := by
  unfold Obligations.DecodePrecedence
  intro p F
  have htable := errorOf_decode p F
  split
  · next e he => exact errorOf_eq_some.1 (htable.trans he)
  · next he => exact errorOf_eq_none.1 (htable.trans he)

end Sys2Proof
end

section
/-! PROOF. The bytes `encode` answers (R171 to R176): the header word, the flags and the length, then the
payload of the kind. The laws of the length (O5), of the fields (O6) and of the priority byte (O7) read
them back. -/

namespace Sys2Proof

open Machine

/-! ### The priority byte (R99, R174) -/

/-- A tier in range fits above the bits the revision keeps clear. -/
theorem byteOfTier_toNat {r : Revision} {t : Nat} (h : t < nTiers r) :
    (byteOfTier r t).toNat = t * 2 ^ priShift r := by
  rw [byteOfTier, BitVec.toNat_shiftLeft, BitVec.toNat_ofNat, Nat.shiftLeft_eq]
  cases r <;> simp only [nTiers, priShift] at h ⊢ <;> omega

theorem priorityByte_of_lt (build : Build) {r : Revision} {t : Nat} (h : t < nTiers r) :
    priorityByte build r t = some (byteOfTier r t) := if_pos h

theorem priorityByte_debug_of_le {r : Revision} {t : Nat} (h : nTiers r ≤ t) :
    priorityByte .debug r t = none := if_neg (Nat.not_lt.2 h)

theorem priorityByte_release_of_le {r : Revision} {t : Nat} (h : nTiers r ≤ t) :
    priorityByte .release r t = some (byteOfTier r (nTiers r - 1)) := if_neg (Nat.not_lt.2 h)

/-- The byte of `PB`, where it does not raise, is the tier or the last one below it, shifted. -/
theorem priorityByte_toNat {build : Build} {r : Revision} {t : Nat} {b : Byte}
    (h : priorityByte build r t = some b) : b.toNat = min t (nTiers r - 1) * 2 ^ priShift r := by
  have hpos : 0 < nTiers r := by cases r <;> decide
  by_cases ht : t < nTiers r
  · rw [priorityByte_of_lt build ht, Option.some_inj] at h
    rw [← h, byteOfTier_toNat ht, Nat.min_eq_left (by omega)]
  · have hle := Nat.not_lt.1 ht
    cases build with
    | debug => rw [priorityByte_debug_of_le hle] at h; cases h
    | release =>
      rw [priorityByte_release_of_le hle, Option.some_inj] at h
      rw [← h, byteOfTier_toNat (by omega), Nat.min_eq_right (by omega)]

/-! ### The payload (R175) -/

theorem encodeEntry_length (e : SettingsEntry) : (encodeEntry e).length = 8 := by
  simp [encodeEntry]

theorem flatMap_encodeEntry_length (entries : List SettingsEntry) :
    (entries.flatMap encodeEntry).length = 8 * entries.length := by
  simp [List.length_flatMap, encodeEntry_length, Nat.mul_comm]

/-- The payload of a frame has the length `plen` counts (R96). -/
theorem encodePayload_length {build : Build} {r : Revision} {f : Instr} {payload : Bytes}
    (h : encodePayload build r f = some payload) : payload.length = f.plen := by
  cases f with
  | synStream | headers =>
    obtain ⟨b, -, rfl⟩ := Option.map_eq_some_iff.1 h
    simp [Instr.plen]
    omega
  | settings =>
    obtain rfl := Option.some_inj.1 h
    rw [List.length_append, beBytes_length, flatMap_encodeEntry_length, Instr.plen]
  | data | synReply | rstStream | ping | goaway | windowUpdate =>
    obtain rfl := Option.some_inj.1 h
    simp [Instr.plen]

/-! ### What encode answers -/

/-- A frame without a version or without a control type is a data frame (R94). -/
theorem Instr.eq_data_or_control (f : Instr) :
    (∃ sid flags payload, f = .data sid flags payload) ∨
      ∃ ver k, f.ver? = some ver ∧ f.controlType? = some k := by
  cases f with
  | data => exact .inl ⟨_, _, _, rfl⟩
  | _ => exact .inr ⟨_, _, rfl, rfl⟩

/-- A legal data frame is its header before its payload (R172). -/
theorem encode_data {p : Params} (build : Build) {sid : StreamId} {flags : Byte} {payload : Bytes}
    (hflags : flagsLegal p (.data sid flags payload) = true) (hlen : payload.length ≤ maxPayload) :
    encode p build (.data sid flags payload) =
      .bytes (dataHeader sid flags payload.length ++ payload) := by
  unfold encode
  rw [if_neg (not_not.2 hflags)]
  exact if_neg (Nat.not_lt.2 hlen)

/-- A legal control frame is its header before its payload; an unrecognised version is refused, and a
tier that `PB` raises on is the fault (R171, R173, R174). -/
theorem encode_control {p : Params} (build : Build) {f : Instr} {ver : VersionTag} {k : ControlType}
    (hflags : flagsLegal p f = true) (hlen : f.plen ≤ maxPayload) (hver : f.ver? = some ver)
    (hk : f.controlType? = some k) :
    encode p build f = (revisionOf p ver).elim (.refused .undefinedVersion) fun r =>
      (encodePayload build r f).elim (.fault .tierRange) fun payload =>
        .bytes (controlHeader ver (p.typeCode k) f.flags f.plen ++ payload) := by
  unfold encode
  rw [if_neg (not_not.2 hflags), if_neg (Nat.not_lt.2 hlen)]
  split
  · cases hk
  · simp only [hver, hk]
    cases revisionOf p ver with
    | none => rfl
    | some r => cases hpay : encodePayload build r f <;> simp only [hpay, Option.elim]

/-- The bytes of a control frame are its header and its payload, under a recognised version. -/
theorem control_of_encode {p : Params} {build : Build} {f : Instr} {ver : VersionTag}
    {k : ControlType} {buf : Bytes} (hver : f.ver? = some ver) (hk : f.controlType? = some k)
    (h : encode p build f = .bytes buf) :
    ∃ r payload, revisionOf p ver = some r ∧ encodePayload build r f = some payload ∧
      buf = controlHeader ver (p.typeCode k) f.flags f.plen ++ payload := by
  obtain ⟨hflags, hlen⟩ := legal_of_encode h
  rw [encode_control build hflags hlen hver hk] at h
  cases hr : revisionOf p ver with
  | none => rw [hr] at h; cases h
  | some r =>
    cases hpay : encodePayload build r f with
    | none => rw [hr, Option.elim_some, hpay] at h; cases h
    | some payload =>
      rw [hr, Option.elim_some, hpay] at h
      exact ⟨r, payload, rfl, hpay, (EncodeResult.bytes.inj h).symm⟩

/-- The bytes of a data frame are its header and its payload. -/
theorem data_of_encode {p : Params} {build : Build} {sid : StreamId} {flags : Byte}
    {payload buf : Bytes} (h : encode p build (.data sid flags payload) = .bytes buf) :
    buf = dataHeader sid flags payload.length ++ payload := by
  obtain ⟨hflags, hlen⟩ := legal_of_encode h
  rw [encode_data build hflags hlen] at h
  exact (EncodeResult.bytes.inj h).symm

/-- Both classes: a word of four bytes, the flags, the length, and a payload of that length. -/
theorem layout_of_encode {p : Params} {build : Build} {f : Instr} {buf : Bytes}
    (h : encode p build f = .bytes buf) :
    ∃ word payload : Bytes, word.length = 4 ∧ payload.length = f.plen ∧
      buf = word ++ beBytes 1 f.flags.toNat ++ beBytes 3 f.plen ++ payload := by
  obtain ⟨sid, flags, payload, rfl⟩ | ⟨ver, k, hver, hk⟩ := f.eq_data_or_control
  · exact ⟨beBytes 4 sid.toNat, payload, beBytes_length .., rfl, data_of_encode h⟩
  · obtain ⟨r, payload, -, hpay, hbuf⟩ := control_of_encode hver hk h
    exact ⟨beBytes 2 (0x8000 + ver.toNat) ++ beBytes 2 (p.typeCode k).toNat, payload, by simp,
      encodePayload_length hpay, hbuf⟩

/-! ### The header, read back (R172, R173, R176) -/

theorem length_of_encode {p : Params} {build : Build} {f : Instr} {buf : Bytes}
    (h : encode p build f = .bytes buf) : buf.length = 8 + f.plen := by
  obtain ⟨word, payload, hword, hpayload, rfl⟩ := layout_of_encode h
  simp only [List.length_append, beBytes_length, hword, hpayload]

theorem memRead_flags_of_encode {p : Params} {build : Build} {f : Instr} {buf : Bytes}
    (h : encode p build f = .bytes buf) : memRead buf 4 1 = .ok f.flags.toNat := by
  obtain ⟨word, payload, hword, -, rfl⟩ := layout_of_encode h
  exact memRead_beBytes (A := word) (C := beBytes 3 f.plen ++ payload) (by simp) hword.symm
    f.flags.isLt

theorem memRead_plen_of_encode {p : Params} {build : Build} {f : Instr} {buf : Bytes}
    (h : encode p build f = .bytes buf) : memRead buf 5 3 = .ok f.plen := by
  obtain ⟨-, hlen⟩ := legal_of_encode h
  obtain ⟨word, payload, hword, -, rfl⟩ := layout_of_encode h
  exact memRead_beBytes (A := word ++ beBytes 1 f.flags.toNat) (C := payload) (by simp)
    (by simp [hword]) (Nat.lt_succ_of_le hlen)

/-- The control bit with the version, and the type, stand in the first four bytes (R91). -/
theorem memRead_versionType_of_encode {p : Params} {build : Build} {f : Instr} {ver : VersionTag}
    {k : ControlType} {buf : Bytes} (hver : f.ver? = some ver) (hk : f.controlType? = some k)
    (h : encode p build f = .bytes buf) :
    memRead buf 0 2 = .ok (0x8000 + ver.toNat) ∧ memRead buf 2 2 = .ok (p.typeCode k).toNat := by
  have hlt := ver.isLt
  obtain ⟨r, payload, -, -, rfl⟩ := control_of_encode hver hk h
  exact ⟨memRead_beBytes (A := []) (by simp [controlHeader]; rfl) rfl (by omega),
    memRead_beBytes (A := beBytes 2 (0x8000 + ver.toNat)) (by simp [controlHeader]; rfl) (by simp)
      (p.typeCode k).isLt⟩

/-- Settles O5: the layout common to both classes, measured and read at offset 5. -/
theorem encodedLength : Obligations.EncodedLength := by
  unfold Obligations.EncodedLength
  exact fun p build f buf _ h => ⟨length_of_encode h, memRead_plen_of_encode h⟩

/-! ### The payload fields, read back (R175) -/

section
variable {H C buf : Bytes}

/-- The first word of a payload stands at offset 8. -/
theorem memRead_firstWord {a : Nat} (hbuf : buf = H ++ (beBytes 4 a ++ C)) (hH : H.length = 8)
    (ha : a < 2 ^ 32) : memRead buf 8 4 = .ok a :=
  memRead_beBytes hbuf hH.symm ha

/-- The second word of a payload stands at offset 12. -/
theorem memRead_secondWord {a b : Nat} (hbuf : buf = H ++ (beBytes 4 a ++ (beBytes 4 b ++ C)))
    (hH : H.length = 8) (hb : b < 2 ^ 32) : memRead buf 12 4 = .ok b :=
  memRead_beBytes (A := H ++ beBytes 4 a) (C := C) (by simp [hbuf]) (by simp [hH]) hb

/-- A payload of two words. -/
theorem memRead_twoWords {a b : Nat} (hbuf : buf = H ++ (beBytes 4 a ++ beBytes 4 b))
    (hH : H.length = 8) (ha : a < 2 ^ 32) (hb : b < 2 ^ 32) :
    memRead buf 8 4 = .ok a ∧ memRead buf 12 4 = .ok b :=
  ⟨memRead_firstWord hbuf hH ha, memRead_secondWord (a := a) (C := []) (by simp [hbuf]) hH hb⟩

/-- A priority byte as the tier policy gives it, the reserved byte 0, then the header block. -/
theorem memRead_priority {build : Build} {r : Revision} {t off : Nat} {b : Byte}
    (hb : priorityByte build r t = some b) (hbuf : buf = H ++ ([b, 0] ++ C)) (hoff : off = H.length) :
    memRead buf off 1 = .ok (min t (nTiers r - 1) * 2 ^ priShift r) ∧
      memRead buf (off + 1) 1 = .ok 0 ∧ buf.drop (off + 2) = C := by
  subst hoff hbuf
  have hbyte : memRead (H ++ ([b, 0] ++ C)) H.length 1 = .ok (beValue [b]) :=
    memRead_at (C := 0 :: C) rfl rfl rfl
  have hvalue : beValue [b] = b.toNat := by simp [beValue_cons]
  refine ⟨?_, memRead_at (A := H ++ [b]) (B := [0]) (C := C) (by simp) (by simp) rfl, by simp⟩
  rw [hbyte, hvalue, priorityByte_toNat hb]

end

/-- The `k`-th entry of a SETTINGS payload stands behind the `8 * k` bytes of those before it (R103). -/
theorem flatMap_encodeEntry_split {entries : List SettingsEntry} {k : Nat} {e : SettingsEntry}
    (h : entries[k]? = some e) :
    ∃ A C : Bytes, A.length = 8 * k ∧ entries.flatMap encodeEntry = A ++ (encodeEntry e ++ C) := by
  obtain ⟨hk, rfl⟩ := List.getElem?_eq_some_iff.1 h
  refine ⟨(entries.take k).flatMap encodeEntry, (entries.drop (k + 1)).flatMap encodeEntry, ?_, ?_⟩
  · rw [flatMap_encodeEntry_length, List.length_take, Nat.min_eq_left hk.le]
  · conv_lhs => rw [← List.take_append_drop k entries, List.drop_eq_getElem_cons hk]
    rw [List.flatMap_append, List.flatMap_cons]

/-- The three fields of a SETTINGS entry, wherever the entry stands (R103). -/
theorem memRead_encodeEntry {A C F : Bytes} {off : Nat} {e : SettingsEntry}
    (hF : F = A ++ (encodeEntry e ++ C)) (ho : off = A.length) :
    memRead F off 1 = .ok e.eflags.toNat ∧ memRead F (off + 1) 3 = .ok e.id.toNat ∧
      memRead F (off + 4) 4 = .ok e.value.toNat := by
  subst ho hF
  refine ⟨memRead_beBytes (by simp [encodeEntry]; rfl) rfl e.eflags.isLt,
    memRead_beBytes (A := A ++ beBytes 1 e.eflags.toNat) (by simp [encodeEntry]; rfl) (by simp)
      e.id.isLt,
    memRead_beBytes (A := A ++ beBytes 1 e.eflags.toNat ++ beBytes 3 e.id.toNat)
      (by simp [encodeEntry]; rfl) (by simp) e.value.isLt⟩

/-- A 31-bit field leaves the high bit of its word clear. -/
theorem toNat_lt_word (x : BitVec 31) : x.toNat < 2 ^ 32 :=
  x.isLt.trans (by norm_num)

/-- Settles O6: the header is read back for every frame; the payload by its kind. -/
theorem encodedFields : Obligations.EncodedFields := by
  unfold Obligations.EncodedFields
  intro p build f buf h
  refine ⟨fun ver k hver hk => memRead_versionType_of_encode hver hk h, memRead_flags_of_encode h,
    memRead_plen_of_encode h, ?_⟩
  cases f with
  | data sid flags payload =>
    obtain rfl := data_of_encode h
    exact ⟨memRead_beBytes (A := []) (by simp [dataHeader]; rfl) rfl (toNat_lt_word sid), by simp⟩
  | synStream ver flags sid assoc tier hb =>
    obtain ⟨r, payload, hr, hpay, hbuf⟩ := control_of_encode rfl rfl h
    obtain ⟨b, hbyte, rfl⟩ := Option.map_eq_some_iff.1 hpay
    simp only [List.append_assoc] at hbuf
    have hbuf' := hbuf
    rw [← List.append_assoc, ← List.append_assoc] at hbuf'
    obtain ⟨hpri, hzero, hrest⟩ := memRead_priority (off := 16) hbyte hbuf' (by simp)
    refine ⟨memRead_firstWord hbuf (by simp) (toNat_lt_word sid),
      memRead_secondWord hbuf (by simp) (toNat_lt_word assoc), fun r' hr' => ?_, hzero, hrest⟩
    rw [← Option.some_inj.1 (hr.symm.trans hr'), hpri]
  | synReply ver flags sid hb =>
    obtain ⟨r, payload, -, hpay, hbuf⟩ := control_of_encode rfl rfl h
    obtain rfl := Option.some_inj.1 hpay
    refine ⟨memRead_firstWord hbuf (by simp) (toNat_lt_word sid), ?_⟩
    rw [hbuf, ← List.append_assoc, List.drop_left' (by simp)]
  | rstStream ver flags sid status =>
    obtain ⟨r, payload, -, hpay, hbuf⟩ := control_of_encode rfl rfl h
    obtain rfl := Option.some_inj.1 hpay
    exact memRead_twoWords hbuf (by simp) (toNat_lt_word sid) status.isLt
  | settings ver flags entries =>
    obtain ⟨-, hlen⟩ := legal_of_encode h
    simp only [Instr.plen, maxPayload] at hlen
    obtain ⟨r, payload, -, hpay, hbuf⟩ := control_of_encode rfl rfl h
    obtain rfl := Option.some_inj.1 hpay
    refine ⟨memRead_firstWord hbuf (by simp) (by omega), fun k e he => ?_⟩
    obtain ⟨A, C, hA, hsplit⟩ := flatMap_encodeEntry_split he
    rw [hsplit, ← List.append_assoc, ← List.append_assoc] at hbuf
    rw [show 13 + 8 * k = 12 + 8 * k + 1 by omega, show 16 + 8 * k = 12 + 8 * k + 4 by omega]
    exact memRead_encodeEntry hbuf (by simp [hA]; omega)
  | ping ver flags id =>
    obtain ⟨r, payload, -, hpay, hbuf⟩ := control_of_encode rfl rfl h
    obtain rfl := Option.some_inj.1 hpay
    rw [← List.append_nil (beBytes 4 id.toNat)] at hbuf
    exact memRead_firstWord hbuf (by simp) id.isLt
  | goaway ver flags lastGood status =>
    obtain ⟨r, payload, -, hpay, hbuf⟩ := control_of_encode rfl rfl h
    obtain rfl := Option.some_inj.1 hpay
    exact memRead_twoWords hbuf (by simp) (toNat_lt_word lastGood) status.isLt
  | headers ver flags sid tier hb =>
    obtain ⟨r, payload, hr, hpay, hbuf⟩ := control_of_encode rfl rfl h
    obtain ⟨b, hbyte, rfl⟩ := Option.map_eq_some_iff.1 hpay
    simp only [List.append_assoc] at hbuf
    have hbuf' := hbuf
    rw [← List.append_assoc] at hbuf'
    obtain ⟨hpri, hzero, hrest⟩ := memRead_priority (off := 12) hbyte hbuf' (by simp)
    refine ⟨memRead_firstWord hbuf (by simp) (toNat_lt_word sid), fun r' hr' => ?_, hzero, hrest⟩
    rw [← Option.some_inj.1 (hr.symm.trans hr'), hpri]
  | windowUpdate ver flags sid delta =>
    obtain ⟨r, payload, -, hpay, hbuf⟩ := control_of_encode rfl rfl h
    obtain rfl := Option.some_inj.1 hpay
    exact memRead_twoWords hbuf (by simp) (toNat_lt_word sid) (toNat_lt_word delta)

/-! ### The tier policy (R174) -/

theorem byteAt_of_memRead {F : Bytes} {off v : Nat} (h : memRead F off 1 = .ok v) :
    (byteAt F off).toNat = v := by
  obtain ⟨hin, -⟩ := memRead_eq_ok.1 h
  exact Except.ok.inj ((memRead_one hin).symm.trans h)

/-- The tier policy for any legal control frame whose payload is built around the byte of `PB`. -/
theorem tierPolicy_of_payload {p : Params} {build : Build} {f : Instr} {ver : VersionTag}
    {k : ControlType} {r : Revision} {t off : Nat} {g : Byte → Bytes}
    (hflags : flagsLegal p f = true) (hlen : f.plen ≤ maxPayload) (hver : f.ver? = some ver)
    (hk : f.controlType? = some k) (hr : revisionOf p ver = some r)
    (hpay : encodePayload build r f = (priorityByte build r t).map g)
    (hfield : ∀ buf, encode p build f = .bytes buf →
      memRead buf off 1 = .ok (min t (nTiers r - 1) * 2 ^ priShift r)) :
    (t < nTiers r → ∃ buf, encode p build f = .bytes buf ∧
      (byteAt buf off).toNat = t * 2 ^ priShift r) ∧
    (nTiers r ≤ t → build = .debug → encode p build f = .fault .tierRange) ∧
    (nTiers r ≤ t → build = .release → ∃ buf, encode p build f = .bytes buf ∧
      (byteAt buf off).toNat = (nTiers r - 1) * 2 ^ priShift r) := by
  have henc := encode_control build hflags hlen hver hk
  rw [hr, Option.elim_some, hpay] at henc
  refine ⟨fun ht => ?_, fun ht hb => ?_, fun ht hb => ?_⟩
  · rw [priorityByte_of_lt build ht] at henc
    have hbyte := byteAt_of_memRead (hfield _ henc)
    rw [Nat.min_eq_left (by omega)] at hbyte
    exact ⟨_, henc, hbyte⟩
  · subst hb
    rwa [priorityByte_debug_of_le ht] at henc
  · subst hb
    rw [priorityByte_release_of_le ht] at henc
    have hbyte := byteAt_of_memRead (hfield _ henc)
    rw [Nat.min_eq_right (by omega)] at hbyte
    exact ⟨_, henc, hbyte⟩

/-- Settles O7: both kinds build their payload around the byte of `PB`, and O6 says where it stands. -/
theorem encodeTierPolicy : Obligations.EncodeTierPolicy := by
  unfold Obligations.EncodeTierPolicy
  intro p build ver r flags sid assoc tier hb f off hf hr hflags hlen
  obtain ⟨rfl, rfl⟩ | ⟨rfl, rfl⟩ := hf
  · refine tierPolicy_of_payload (decide_eq_true hflags) hlen rfl rfl hr rfl fun buf h => ?_
    obtain ⟨-, -, -, -, -, hpri, -⟩ := encodedFields p build _ buf h
    exact hpri r hr
  · refine tierPolicy_of_payload (decide_eq_true hflags) hlen rfl rfl hr rfl fun buf h => ?_
    obtain ⟨-, -, -, -, hpri, -⟩ := encodedFields p build _ buf h
    exact hpri r hr

end Sys2Proof
end

section
/-! PROOF. The transition function of a stream has exactly the cells of the table (R196). -/

namespace Sys2Proof

open Machine

/-- No event leads out of `CLOSED`: its row of the table is blank. -/
@[simp] theorem nextState_closed (e : StreamEvent) : nextState .closed e = none := by
  cases e <;> rfl

/-- Settles O28. An answer rules out the blank cells of its row, and the others are listed; each of the
cells listed is answered. -/
theorem transitionTable : Obligations.TransitionTable := by
  unfold Obligations.TransitionTable
  intro a b e
  constructor
  case mp =>
    intro answered
    cases a with
    | idle | opened | halfClosedLocal | halfClosedRemote =>
      cases e <;> cases answered <;> simp
    | closed => simp at answered
  case mpr =>
    intro listed
    exact (by decide : ∀ cell ∈ _, nextState cell.1 cell.2.1 = some cell.2.2) _ listed

end Sys2Proof
end

section
/-! PROOF. `next()` serves the urgent queue, then the tiers in order of precedence (R222). -/

namespace Sys2Proof

open Machine

/-! ### The first non-empty tier -/

theorem firstNonEmpty_eq_none {qs : TierQueues} {ts : List (Fin 8)} :
    firstNonEmpty qs ts = none ↔ ∀ t ∈ ts, qs[t] = [] := by
  induction ts with
  | nil => simp [firstNonEmpty]
  | cons t ts ih =>
    rw [firstNonEmpty, List.forall_mem_cons]
    split
    next h => rw [ih, and_iff_right h]
    next h => simp only [h, false_and, reduceCtorEq]

/-- Among tiers in ascending order, the first one that is not empty is the lowest. -/
theorem firstNonEmpty_of_ascending {qs : TierQueues} {ts : List (Fin 8)} {t : Fin 8}
    (ascending : ts.Pairwise (· < ·)) (hmem : t ∈ ts) (hlower : ∀ u < t, qs[u] = [])
    (ht : qs[t] ≠ []) : firstNonEmpty qs ts = some t := by
  induction ascending with
  | nil => cases hmem
  | @cons u rest hu _ ih =>
    obtain rfl | hrest := List.mem_cons.1 hmem
    · simp only [firstNonEmpty, if_neg ht]
    · have hempty : qs[u] = [] := hlower u (hu t hrest)
      simp only [firstNonEmpty, if_pos hempty]
      exact ih hrest

theorem mem_tiersInOrder (t : Fin 8) : t ∈ tiersInOrder := by
  decide +revert

theorem tiersInOrder_ascending : tiersInOrder.Pairwise (· < ·) := by
  decide

/-! ### The three answers of `next()` -/

theorem next_of_urgent {s : State} {f : Instr} {rest : List Instr} (h : s.urgent = f :: rest) :
    next s = some (f, { s with urgent := rest }) := by
  simp only [next, h]

theorem next_of_tier {s : State} {t : Fin 8} {sid : StreamId} {f : Instr} {rest : List QueueEntry}
    (hurgent : s.urgent = []) (hlower : ∀ u < t, s.tierq[u] = [])
    (ht : s.tierq[t] = (sid, f) :: rest) : next s = some (f, setQueue t rest s) := by
  have hfirst : firstNonEmpty s.tierq tiersInOrder = some t :=
    firstNonEmpty_of_ascending tiersInOrder_ascending (mem_tiersInOrder t) hlower (by simp [ht])
  simp only [next, hurgent, hfirst, ht]

theorem next_of_empty {s : State} (hurgent : s.urgent = []) (htiers : ∀ t : Fin 8, s.tierq[t] = []) :
    next s = none := by
  have hfirst : firstNonEmpty s.tierq tiersInOrder = none :=
    firstNonEmpty_eq_none.2 fun t _ => htiers t
  simp only [next, hurgent, hfirst]

/-- Settles O29: the three answers, `setQueue` being the write of one queue. -/
theorem nextPrecedence : Obligations.NextPrecedence := by
  unfold Obligations.NextPrecedence
  intro s
  exact ⟨fun _ _ => next_of_urgent, fun _ _ _ _ => next_of_tier, next_of_empty⟩

end Sys2Proof
end

section
/-! PROOF. The credit gate: `reserve` compares with `avail`, and a granted `consume` overdraws neither
window (R236, R237). -/

namespace Sys2Proof

open Machine

/-- The three comparisons of R236, for a stream in the table. -/
theorem reserve_of_get {sid : StreamId} {n : Nat} {s : State} {r : Stream}
    (h : tableGet s.streams sid = some r) :
    reserve sid n s = true ↔
      (n : Int) ≤ r.sendWindow ∧ (n : Int) ≤ s.sessionSendWindow ∧ 0 ≤ r.sendWindow := by
  simp [reserve, h]

theorem avail_of_get {sid : StreamId} {s : State} {r : Stream}
    (h : tableGet s.streams sid = some r) :
    avail sid s = some (min r.sendWindow s.sessionSendWindow) :=
  avail_eq.2 ⟨r, h, rfl⟩

/-- The characterisation of R236. The gate does not test the session window against 0; a grant of
`n ≥ 0` bytes from it does. -/
theorem reserve_iff_le_avail {sid : StreamId} {n : Nat} {s : State} {r : Stream}
    (h : tableGet s.streams sid = some r) :
    reserve sid n s = true ↔ ∃ a, avail sid s = some a ∧ (n : Int) ≤ a ∧ 0 ≤ a := by
  rw [reserve_of_get h, avail_of_get h]
  simp only [Option.some.injEq, exists_eq_left', le_min_iff]
  omega

/-- Settles O31: the gate by `avail`, then the state after `consume` and the comparisons that granted
it, which are the two bounds. -/
theorem creditGate : Obligations.CreditGate := by
  unfold Obligations.CreditGate
  intro s sid r n hget
  refine ⟨reserve_iff_le_avail hget, fun hgrant => ?_⟩
  obtain ⟨hstream, hsession, -⟩ := (reserve_of_get hget).1 hgrant
  exact ⟨consume_of_get hget, Int.sub_nonneg_of_le hstream, Int.sub_nonneg_of_le hsession⟩

end Sys2Proof
end

section
/-! PROOF. A turn of the receive loop: it waits, is session-fatal, skips the frame, or dispatches it
(R261, R272, R345). -/

namespace Sys2Proof

open Machine

theorem step_of_receiving {s : State} (h : s.phase = .receiving) : step s = receiveTurn s := by
  simp only [step, h]

theorem finishReceive_eq (s : State) :
    finishReceive s = andThen (epilogue s) fun t => .next (ret .ok t) := rfl

theorem receiveTurn_of_waiting {s : State}
    (h : s.mode = .closed ∨ s.rxBuf.length < 8 ∨
      8 + headerLength s.rxBuf ≤ s.cfg.rxBufMax ∧ s.rxBuf.length < 8 + headerLength s.rxBuf) :
    receiveTurn s = finishReceive s := by
  unfold receiveTurn
  split
  next => rfl
  next hopen =>
    split
    next => rfl
    next hheader =>
      obtain ⟨hcapacity, hpayload⟩ := (h.resolve_left hopen).resolve_left hheader
      simp only [if_neg hcapacity.not_gt, if_pos hpayload]

theorem receiveTurn_of_overCapacity {s : State} (hopen : s.mode ≠ .closed)
    (hheader : 8 ≤ s.rxBuf.length) (hcapacity : s.cfg.rxBufMax < 8 + headerLength s.rxBuf) :
    receiveTurn s = fatal (.malformed .frameTooLarge) s := by
  simp only [receiveTurn, if_neg hopen, if_neg hheader.not_gt, if_pos hcapacity]

section WholeFrame

variable {s : State} (hopen : s.mode ≠ .closed) (hheader : 8 ≤ s.rxBuf.length)
  (hcapacity : 8 + headerLength s.rxBuf ≤ s.cfg.rxBufMax)
  (hpayload : 8 + headerLength s.rxBuf ≤ s.rxBuf.length)
include hopen hheader hcapacity hpayload

theorem receiveTurn_of_frame {f : Instr}
    (hdecode : decode s.cfg.params (s.rxBuf.take (8 + headerLength s.rxBuf)) = .ok f) :
    receiveTurn s = exec f (cutFrame (8 + headerLength s.rxBuf) s) := by
  simp only [receiveTurn, if_neg hopen, if_neg hheader.not_gt, if_neg hcapacity.not_gt,
    if_neg hpayload.not_gt, hdecode]

theorem receiveTurn_of_decodeError {e : DecodeError}
    (hdecode : decode s.cfg.params (s.rxBuf.take (8 + headerLength s.rxBuf)) = .error e) :
    receiveTurn s = decodeFailed e (cutFrame (8 + headerLength s.rxBuf) s) := by
  simp only [receiveTurn, if_neg hopen, if_neg hheader.not_gt, if_neg hcapacity.not_gt,
    if_neg hpayload.not_gt, hdecode]

end WholeFrame

/-- Settles O13: the state past the frame is `cutFrame`'s, and `fatal_eq` gives the state a session-fatal
decode error leaves. -/
theorem receiveLoop : Obligations.ReceiveLoop := by
  unfold Obligations.ReceiveLoop
  intro s hphase total past
  rw [step_of_receiving hphase]
  refine ⟨fun hwait => receiveTurn_of_waiting hwait, fun hopen hheader hcapacity => ?_,
    fun hopen hheader hcapacity hpayload => ⟨?skipped, ?malformed, ?illegalBits, ?version, ?frame⟩⟩
  · exact (receiveTurn_of_overCapacity hopen hheader hcapacity).trans (fatal_eq _ s)
  case skipped =>
    exact fun _ hdecode => receiveTurn_of_decodeError hopen hheader hcapacity hpayload hdecode
  case malformed | illegalBits | version =>
    exact fun _ hdecode =>
      (receiveTurn_of_decodeError hopen hheader hcapacity hpayload hdecode).trans (fatal_eq _ past)
  case frame =>
    exact fun _ hdecode => receiveTurn_of_frame hopen hheader hcapacity hpayload hdecode

end Sys2Proof
end

section
/-! PROOF. The meaning of a frame that passes the checks of `DISPATCH` (R262): of the session's version,
and about a stream that is named. -/

namespace Sys2Proof

open Machine

@[simp] theorem versionChecked_wireVersion (s : State) (k : Outcome) :
    versionChecked (wireVersion s.cfg) s k = k := if_neg (not_not.2 rfl)

theorem streamNamed_of_ne {sid : StreamId} (h : sid ≠ 0) (s : State) (k : Outcome) :
    streamNamed sid s k = k := if_neg h

section

variable (s : State) (flags : Byte)

theorem exec_settings (entries : List SettingsEntry) :
    exec (.settings (wireVersion s.cfg) flags entries) s = applySettings entries s :=
  versionChecked_wireVersion s _

theorem exec_ping (id : Word32) : exec (.ping (wireVersion s.cfg) flags id) s =
    .next (enqueueUrgent (.ping (wireVersion s.cfg) 0 id) s) :=
  versionChecked_wireVersion s _

theorem exec_goaway (lastGood : StreamId) (status : Word32) :
    exec (.goaway (wireVersion s.cfg) flags lastGood status) s =
      .next (receiveGoaway lastGood status s) :=
  versionChecked_wireVersion s _

theorem exec_windowUpdate (sid : StreamId) (delta : BitVec 31) :
    exec (.windowUpdate (wireVersion s.cfg) flags sid delta) s = receiveWindowUpdate sid delta s :=
  versionChecked_wireVersion s _

variable {sid : StreamId} (hsid : sid ≠ 0)
include hsid

theorem exec_data (payload : Bytes) :
    exec (.data sid flags payload) s = receiveData sid flags payload s :=
  streamNamed_of_ne hsid s _

theorem exec_synStream (assoc : StreamId) (tier : Fin 8) (hb : Bytes) :
    exec (.synStream (wireVersion s.cfg) flags sid assoc tier hb) s =
      receiveSynStream sid flags tier hb s :=
  (versionChecked_wireVersion s _).trans (streamNamed_of_ne hsid s _)

theorem exec_synReply (hb : Bytes) : exec (.synReply (wireVersion s.cfg) flags sid hb) s =
    .next (receiveHeaders sid flags hb s) :=
  (versionChecked_wireVersion s _).trans (streamNamed_of_ne hsid s _)

theorem exec_headers (tier : Fin 8) (hb : Bytes) :
    exec (.headers (wireVersion s.cfg) flags sid tier hb) s =
      .next (receiveHeaders sid flags hb s) :=
  (versionChecked_wireVersion s _).trans (streamNamed_of_ne hsid s _)

theorem exec_rstStream (status : Word32) :
    exec (.rstStream (wireVersion s.cfg) flags sid status) s = .next (receiveRst sid status s) :=
  (versionChecked_wireVersion s _).trans (streamNamed_of_ne hsid s _)

end

/-- Settles O23: the echo is one frame more in the urgent queue. -/
theorem pingReceived : Obligations.PingReceived := by
  unfold Obligations.PingReceived
  exact exec_ping

end Sys2Proof
end

section
/-! PROOF. WINDOW_UPDATE credits the session window or one stream's (R268, R238). -/

namespace Sys2Proof

open Machine

theorem receiveWindowUpdate_of_credit {sid : StreamId} {delta : BitVec 31} {s t : State}
    (h : replenish sid delta.toNat s = some t) : receiveWindowUpdate sid delta s = .next t := by
  simp only [receiveWindowUpdate, h]

theorem receiveWindowUpdate_of_sessionOverflow {delta : BitVec 31} {s : State}
    (h : replenish 0 delta.toNat s = none) :
    receiveWindowUpdate 0 delta s = fatal (.flowControlViolation .windowOverflow) s := by
  simp only [receiveWindowUpdate, h, if_true]

theorem receiveWindowUpdate_of_streamOverflow {sid : StreamId} {delta : BitVec 31} {s : State}
    (hsid : sid ≠ 0) (h : replenish sid delta.toNat s = none) :
    receiveWindowUpdate sid delta s = .next (streamError sid s.cfg.params.rstFlowControlError
      (.streamProtocolError .windowOverflow) s) := by
  simp only [receiveWindowUpdate, h, if_neg hsid]

/-- Settles O22, by what `replenish` can do: `replenish_eq_some` on credit, `replenish_eq_none` on an
overflow. -/
theorem windowUpdateReceived : Obligations.WindowUpdateReceived := by
  unfold Obligations.WindowUpdateReceived
  intro s flags sid delta f
  rw [exec_windowUpdate s flags sid delta]
  refine ⟨?session, ?sessionOverflow, ?unknown, ?stream, ?streamOverflow⟩
  case session =>
    intro hzero hfits
    exact receiveWindowUpdate_of_credit (replenish_eq_some.2 (.inl ⟨hzero, hfits, rfl⟩))
  case sessionOverflow =>
    rintro rfl hover
    have hnone : replenish 0 delta.toNat s = none := replenish_eq_none.2 (.inl ⟨rfl, hover⟩)
    rw [receiveWindowUpdate_of_sessionOverflow hnone, fatal_eq]
  case unknown =>
    intro hsid hget
    exact receiveWindowUpdate_of_credit (replenish_eq_some.2 (.inr (.inl ⟨hsid, hget, rfl⟩)))
  case stream =>
    intro hsid r hget hfits
    exact receiveWindowUpdate_of_credit
      (replenish_eq_some.2 (.inr (.inr ⟨hsid, r, hget, hfits, rfl⟩)))
  case streamOverflow =>
    intro hsid r hget hover
    have hnone : replenish sid delta.toNat s = none :=
      replenish_eq_none.2 (.inr ⟨hsid, r, hget, hover⟩)
    rw [receiveWindowUpdate_of_streamOverflow hsid hnone, streamError_eq]

end Sys2Proof
end

section
/-! PROOF. RST_STREAM removes a stream with all that waits for it (R271). -/

namespace Sys2Proof

open Machine

theorem receiveRst_of_unknown {sid : StreamId} {s : State} (h : tableGet s.streams sid = none)
    (status : Word32) : receiveRst sid status s = s := by
  simp only [receiveRst, transition_unknown.2 h]

theorem receiveRst_of_isSome {sid : StreamId} {s : State}
    (h : (tableGet s.streams sid).isSome = true) (status : Word32) :
    receiveRst sid status s = emit (.onStreamClosed sid (.resetByPeer status))
      (closeStream sid (purge sid (orElseSame s (transition sid .recvRst s)))) := by
  unfold receiveRst
  split
  next hunknown => simp [transition_unknown.1 hunknown] at h
  next => rfl

/-- The removal forgets the state the transition before it wrote into the record. -/
theorem closeStream_purge_transition (sid : StreamId) (e : StreamEvent) (s : State) :
    closeStream sid (purge sid (orElseSame s (transition sid e s))) = withoutStreams [sid] s := by
  rw [withoutStreams_one]
  obtain h | ⟨r, st, -, -, h⟩ := orElseSame_transition sid e s
  · rw [h]
  · simp only [h, closeStream, purge, putStream, tableErase_put]

/-- Settles O20. -/
theorem rstStreamReceived : Obligations.RstStreamReceived := by
  unfold Obligations.RstStreamReceived
  intro s flags sid status hsid
  rw [exec_rstStream s flags hsid status]
  constructor
  · intro hunknown
    rw [receiveRst_of_unknown hunknown]
  · intro hknown
    rw [receiveRst_of_isSome hknown, closeStream_purge_transition]
    rfl

end Sys2Proof
end

section
/-! PROOF. What a frame does to the peer's direction of a stream: it goes on, is finished by FIN, or was
already closed (R196, R264 to R266). -/

namespace Sys2Proof

open Machine

theorem finSet_eq_true_iff {p : Params} {flags : Byte} :
    finSet p flags = true ↔ flags &&& p.flagFin ≠ 0 := decide_eq_true_iff

theorem finSet_eq_false_iff {p : Params} {flags : Byte} :
    finSet p flags = false ↔ flags &&& p.flagFin = 0 := by
  simp [finSet]

theorem putStream_self {sid : StreamId} {r : Stream} {s : State} (hwf : tableWf s.streams = true)
    (hget : tableGet s.streams sid = some r) : putStream sid r s = s := by
  simp only [putStream, tablePut_self hwf hget]

/-- The row of R196 for a frame of the peer: where the peer may send, the state stays. -/
theorem nextState_recvFrame_of_live {st : StreamState} (h : st = .opened ∨ st = .halfClosedLocal) :
    nextState st .recvFrame = some st := by
  obtain rfl | rfl := h <;> rfl

theorem nextState_recvFrame_of_not_live {st : StreamState} (hopened : st ≠ .opened)
    (hlocal : st ≠ .halfClosedLocal) : nextState st .recvFrame = none := by
  cases st with
  | idle | halfClosedRemote | closed => rfl
  | opened => exact absurd rfl hopened
  | halfClosedLocal => exact absurd rfl hlocal

section

variable {sid : StreamId} {s : State} {r : Stream} (hget : tableGet s.streams sid = some r)
include hget

theorem transition_recvFrame_of_live (hwf : tableWf s.streams = true)
    (hlive : r.state = .opened ∨ r.state = .halfClosedLocal) :
    transition sid .recvFrame s = .ok s :=
  transition_eq_ok.2
    ⟨r, r.state, hget, nextState_recvFrame_of_live hlive, (putStream_self hwf hget).symm⟩

theorem transition_recvFrame_of_not_live (hopened : r.state ≠ .opened)
    (hlocal : r.state ≠ .halfClosedLocal) :
    transition sid .recvFrame s = .error .invalidTransition := by
  simp only [transition_of_get hget, nextState_recvFrame_of_not_live hopened hlocal]

/-- FIN on an open stream leaves it half closed. -/
theorem finishPeer_of_opened (hopened : r.state = .opened) :
    removeIfClosed sid (orElseSame s (transition sid .recvFin s)) =
      putStream sid { r with state := .halfClosedRemote } s := by
  have hfin : transition sid .recvFin s = .ok (putStream sid { r with state := .halfClosedRemote } s) :=
    transition_eq_ok.2 ⟨r, _, hget, by rw [hopened]; rfl, rfl⟩
  simp [hfin, removeIfClosed]

/-- FIN on a stream this side has finished removes it. -/
theorem finishPeer_of_halfClosedLocal (hlocal : r.state = .halfClosedLocal) :
    removeIfClosed sid (orElseSame s (transition sid .recvFin s)) =
      emit (.onStreamClosed sid .normal) (closeStream sid s) := by
  have hfin : transition sid .recvFin s = .ok (putStream sid { r with state := .closed } s) :=
    transition_eq_ok.2 ⟨r, _, hget, by rw [hlocal]; rfl, rfl⟩
  simp [hfin, removeIfClosed, closeStream, putStream, tableErase_put]

end

end Sys2Proof
end

section
/-! PROOF. SYN_REPLY and HEADERS: a header block on an existing stream (R264, R265). -/

namespace Sys2Proof

open Machine

section

variable {sid : StreamId} {flags : Byte} {s : State} (hb : Bytes)

theorem finishHeaders_of_noFin (h : flags &&& s.cfg.params.flagFin = 0) :
    finishHeaders sid flags (emit (.onHeaders sid hb) s) = emit (.onHeaders sid hb) s := by
  simp [finishHeaders, finSet_eq_false_iff.2 h]

variable (hfin : flags &&& s.cfg.params.flagFin ≠ 0)
include hfin

theorem finishHeaders_of_fin : finishHeaders sid flags (emit (.onHeaders sid hb) s) =
    removeIfClosed sid (orElseSame (emitAll [.onHeaders sid hb, .onData sid [] true] s)
      (transition sid .recvFin (emitAll [.onHeaders sid hb, .onData sid [] true] s))) := by
  simp [finishHeaders, finSet_eq_true_iff.2 hfin, emit, emitAll]

variable {r : Stream} (hget : tableGet s.streams sid = some r)
include hget

theorem finishHeaders_of_opened (hopened : r.state = .opened) :
    finishHeaders sid flags (emit (.onHeaders sid hb) s) =
      putStream sid { r with state := .halfClosedRemote }
        (emitAll [.onHeaders sid hb, .onData sid [] true] s) :=
  (finishHeaders_of_fin hb hfin).trans (finishPeer_of_opened (s := emitAll _ s) hget hopened)

theorem finishHeaders_of_halfClosedLocal (hlocal : r.state = .halfClosedLocal) :
    finishHeaders sid flags (emit (.onHeaders sid hb) s) = emit (.onStreamClosed sid .normal)
      (closeStream sid (emitAll [.onHeaders sid hb, .onData sid [] true] s)) :=
  (finishHeaders_of_fin hb hfin).trans
    (finishPeer_of_halfClosedLocal (s := emitAll _ s) hget hlocal)

end

section

variable {sid : StreamId} {s : State} (flags : Byte) (hb : Bytes)

theorem receiveHeaders_of_unknown (hget : tableGet s.streams sid = none) :
    receiveHeaders sid flags hb s = withRst sid s.cfg.params.rstInvalidStream s := by
  simp only [receiveHeaders, transition_unknown.2 hget, bareRst_eq]

variable {r : Stream} (hget : tableGet s.streams sid = some r)
include hget

theorem receiveHeaders_of_not_live (hopened : r.state ≠ .opened)
    (hlocal : r.state ≠ .halfClosedLocal) : receiveHeaders sid flags hb s =
      afterStreamError sid s.cfg.params.rstProtocolError (.streamProtocolError .invalidTransition) s := by
  simp only [receiveHeaders, transition_recvFrame_of_not_live hget hopened hlocal, streamError_eq]

theorem receiveHeaders_of_live (hwf : tableWf s.streams = true)
    (hlive : r.state = .opened ∨ r.state = .halfClosedLocal) :
    receiveHeaders sid flags hb s = finishHeaders sid flags (emit (.onHeaders sid hb) s) := by
  simp only [receiveHeaders, transition_recvFrame_of_live hget hwf hlive]

end

/-- Settles O19. Both frames run `receiveHeaders`, so the tier of a HEADERS is out of the goal before the
cases are split. -/
theorem headerFramesReceived : Obligations.HeaderFramesReceived := by
  unfold Obligations.HeaderFramesReceived
  intro s flags sid tier hb f hf hwf hsid p
  have hexec : exec f s = .next (receiveHeaders sid flags hb s) := by
    obtain rfl | rfl := hf
    · exact exec_synReply s flags hsid hb
    · exact exec_headers s flags hsid tier hb
  rw [hexec]
  refine ⟨?unknown, ?notLive, ?noFin, ?finOpened, ?finLocal⟩
  case unknown =>
    intro hget
    rw [receiveHeaders_of_unknown flags hb hget]
  case notLive =>
    intro r hget hopened hlocal
    rw [receiveHeaders_of_not_live flags hb hget hopened hlocal]
  case noFin =>
    intro r hget hlive hfin
    rw [receiveHeaders_of_live flags hb hget hwf hlive, finishHeaders_of_noFin hb hfin]
    rfl
  case finOpened =>
    intro r hget hopened hfin
    rw [receiveHeaders_of_live flags hb hget hwf (.inl hopened),
      finishHeaders_of_opened hb hfin hget hopened]
    rfl
  case finLocal =>
    intro r hget hlocal hfin
    rw [receiveHeaders_of_live flags hb hget hwf (.inr hlocal),
      finishHeaders_of_halfClosedLocal hb hfin hget hlocal]
    simp [closeStream, emit, emitAll]

end Sys2Proof
end

section
/-! PROOF. SYN_STREAM: a stream of the peer opened, or the ways in which it is not (R263, R199). -/

namespace Sys2Proof

open Machine

/-- No peer ID above the largest one seen is in the table (R23, R38). -/
theorem tableGet_of_unseen {s : State} (h : TableInv s) {sid : StreamId}
    (hpeer : isLocal s.cfg.role sid = false) (hunseen : s.lastPeerId.toNat < sid.toNat) :
    tableGet s.streams sid = none := by
  refine tableGet_eq_none_iff.2 fun e he heq => ?_
  have hbelow := h.peerBelow e he (by rw [heq, hpeer])
  have hgood := h.goodSeen
  rw [heq] at hbelow
  omega

/-- The record of a stream the peer has just opened (R192, R196). -/
def peerStream (tier : Fin 8) (s : State) : Stream := { freshStream tier s with state := .opened }

/-- The state in which the peer's new stream is open and its ID recorded as the last good one. -/
def acceptPeer (sid : StreamId) (tier : Fin 8) (s : State) : State :=
  { putStream sid (peerStream tier s) s with lastPeerId := sid, lastGoodPeerId := sid }

/-- A new stream of the peer after its SYN_STREAM (R192, R194). -/
theorem openPeer_eq {sid : StreamId} {s : State} (hsid : sid ≠ 0)
    (hpeer : isLocal s.cfg.role sid = false) (hget : tableGet s.streams sid = none) (tier : Fin 8) :
    orElseSame (orElseSame s (openStream sid tier .peers s))
        (transition sid .recvSyn (orElseSame s (openStream sid tier .peers s))) =
      putStream sid (peerStream tier s) s := by
  have hopen : openStream sid tier .peers s = .ok (putStream sid (freshStream tier s) s) :=
    openStream_eq_ok.2 ⟨hsid, hpeer, hget, rfl⟩
  have hsyn : transition sid .recvSyn (putStream sid (freshStream tier s) s) =
      .ok (putStream sid (peerStream tier s) (putStream sid (freshStream tier s) s)) :=
    transition_eq_ok.2 ⟨freshStream tier s, .opened, tableGet_put_self _ _ _, rfl, rfl⟩
  rw [hopen, orElseSame_ok, hsyn, orElseSame_ok]
  simp only [putStream, tablePut_put]

section

variable {sid : StreamId} {s : State} (flags : Byte) (tier : Fin 8) (hb : Bytes)

section Local

variable (hlocal : isLocal s.cfg.role sid = true)
include hlocal

theorem receiveSynStream_of_localKnown (hknown : (tableGet s.streams sid).isSome = true) :
    receiveSynStream sid flags tier hb s = .next
      (afterStreamError sid s.cfg.params.rstProtocolError (.streamProtocolError .wrongParity) s) := by
  simp only [receiveSynStream, if_pos hlocal, if_pos hknown, streamError_eq]

theorem receiveSynStream_of_localUnknown (hunknown : tableGet s.streams sid = none) :
    receiveSynStream sid flags tier hb s = .next (withRst sid s.cfg.params.rstProtocolError s) := by
  simp [receiveSynStream, hlocal, hunknown, bareRst_eq]

end Local

variable (hpeer : isLocal s.cfg.role sid = false)
include hpeer

theorem receiveSynStream_of_seen (hseen : sid.toNat ≤ s.lastPeerId.toNat) :
    receiveSynStream sid flags tier hb s =
      .next (afterFatal (.sessionProtocolError .streamIdNotIncreasing) s) := by
  simp [receiveSynStream, hpeer, hseen, fatal_eq]

variable (hunseen : s.lastPeerId.toNat < sid.toNat)
include hunseen

/-- The limit is tested after the ID is recorded, which changes neither the count nor the reply. -/
theorem receiveSynStream_of_limit (hlimit : s.cfg.maxPeerStreams ≤ countPeer s) :
    receiveSynStream sid flags tier hb s =
      .next { withRst sid s.cfg.params.rstRefusedStream s with lastPeerId := sid } := by
  have hlimit' : s.cfg.maxPeerStreams ≤ countPeer { s with lastPeerId := sid } := hlimit
  simp [receiveSynStream, hpeer, hunseen.not_ge, hlimit', bareRst_eq, withRst]

theorem receiveSynStream_of_accepted (hinv : TableInv s) (hsid : sid ≠ 0)
    (hroom : countPeer s < s.cfg.maxPeerStreams) :
    receiveSynStream sid flags tier hb s = .next (finishHeaders sid flags
      (emit (.onHeaders sid hb) (acceptPeer sid tier s))) := by
  have hroom' : ¬ s.cfg.maxPeerStreams ≤ countPeer { s with lastPeerId := sid } := hroom.not_ge
  have hopen := openPeer_eq (s := { s with lastPeerId := sid }) hsid hpeer
    (tableGet_of_unseen hinv hpeer hunseen) tier
  simp only [receiveSynStream, hpeer, Bool.false_eq_true, if_false, if_neg hunseen.not_ge,
    if_neg hroom', hopen]
  rfl

end

/-- Settles O18. An accepted stream is open when its FIN is looked at, so the last case is FIN on an open
stream. -/
theorem synStreamReceived : Obligations.SynStreamReceived := by
  unfold Obligations.SynStreamReceived
  intro s flags sid assoc tier hb hinv hsid p f fresh
  rw [exec_synStream s flags hsid assoc tier hb]
  refine ⟨receiveSynStream_of_localKnown flags tier hb, receiveSynStream_of_localUnknown flags tier hb,
    receiveSynStream_of_seen flags tier hb, receiveSynStream_of_limit flags tier hb, ?noFin, ?fin⟩
  case noFin =>
    intro hpeer hunseen hroom hfin
    rw [receiveSynStream_of_accepted flags tier hb hpeer hunseen hinv hsid hroom,
      finishHeaders_of_noFin (s := acceptPeer sid tier s) hb hfin]
    rfl
  case fin =>
    intro hpeer hunseen hroom hfin
    have hget : tableGet (acceptPeer sid tier s).streams sid = some (peerStream tier s) :=
      tableGet_put_self _ _ _
    rw [receiveSynStream_of_accepted flags tier hb hpeer hunseen hinv hsid hroom,
      finishHeaders_of_opened (s := acceptPeer sid tier s) hb hfin hget rfl]
    simp only [putStream, acceptPeer, emitAll, tablePut_put, peerStream, freshStream, fresh]

end Sys2Proof
end

section
/-! PROOF. The receive windows: debited on delivery, and the credit that goes back (R242). -/

namespace Sys2Proof

open Machine

/-- The session's receive credit handed back for `n` payload bytes, with its WINDOW_UPDATE (R242). -/
def creditSession (n : Nat) (s : State) : State :=
  { s with
    sessionRecvWindow := s.sessionRecvWindow + n
    urgent := s.urgent ++
      if n = 0 then [] else [.windowUpdate (wireVersion s.cfg) 0 0 (BitVec.ofNat 31 n)] }

theorem returnCredit_zero (sid : StreamId) (s : State) : returnCredit sid 0 s = s := if_pos rfl

/-- A stream the peer may not send on any more, in the table or not, gets no credit. -/
theorem returnCredit_of_not_live {sid : StreamId} {s : State}
    (h : ∀ r, tableGet s.streams sid = some r → ¬ (r.state = .opened ∨ r.state = .halfClosedLocal))
    (n : Nat) : returnCredit sid n s = creditSession n s := by
  by_cases hn : n = 0
  · subst hn
    simp [returnCredit_zero, creditSession]
  · cases hget : tableGet s.streams sid with
    | none => simp [returnCredit, creditSession, enqueueUrgent, hn, hget]
    | some r => simp [returnCredit, creditSession, enqueueUrgent, hn, hget, h r hget]

theorem returnCredit_of_live {sid : StreamId} {n : Nat} {s : State} {r : Stream} (hn : n ≠ 0)
    (hget : tableGet s.streams sid = some r) (hlive : r.state = .opened ∨ r.state = .halfClosedLocal) :
    returnCredit sid n s = setQueue r.tier
      (s.tierq[r.tier] ++ [(sid, .windowUpdate (wireVersion s.cfg) 0 sid (BitVec.ofNat 31 n))])
      (putStream sid { r with recvWindow := r.recvWindow + n } (creditSession n s)) := by
  simp [returnCredit, creditSession, enqueueUrgent, enqueue, setQueue, putStream, hn, hget, hlive]

/-- The state in which a DATA frame has been delivered on the stream of record `r`, before its FIN and
before the credit goes back (R266). -/
def deliverData (sid : StreamId) (r : Stream) (payload : Bytes) (fin : Bool) (s : State) : State :=
  emit (.onData sid payload fin) (debitRecv sid r payload.length s)

/-- The record of the stream after the delivery. -/
theorem tableGet_deliverData (sid : StreamId) (r : Stream) (payload : Bytes) (fin : Bool) (s : State) :
    tableGet (deliverData sid r payload fin s).streams sid =
      some { r with recvWindow := r.recvWindow - payload.length } :=
  tableGet_put_self _ _ _

/-- Without FIN the windows end where they were: what was debited comes back. -/
theorem returnCredit_deliverData {sid : StreamId} {s : State} {r : Stream}
    (hwf : tableWf s.streams = true) (hget : tableGet s.streams sid = some r)
    (hlive : r.state = .opened ∨ r.state = .halfClosedLocal) (payload : Bytes) (fin : Bool)
    (hn : payload.length ≠ 0) :
    returnCredit sid payload.length (deliverData sid r payload fin s) =
      setQueue r.tier (s.tierq[r.tier] ++
          [(sid, .windowUpdate (wireVersion s.cfg) 0 sid (BitVec.ofNat 31 payload.length))])
        { creditSession payload.length (emit (.onData sid payload fin) s) with
          sessionRecvWindow := s.sessionRecvWindow } := by
  rw [returnCredit_of_live hn (tableGet_deliverData sid r payload fin s) hlive]
  simp [deliverData, debitRecv, creditSession, setQueue, putStream, emit, tablePut_put,
    tablePut_self hwf hget]

theorem deliverData_nil {sid : StreamId} {s : State} {r : Stream} (hwf : tableWf s.streams = true)
    (hget : tableGet s.streams sid = some r) (fin : Bool) :
    deliverData sid r [] fin s = emit (.onData sid [] fin) s := by
  simp [deliverData, debitRecv, putStream, emit, tablePut_self hwf hget]

end Sys2Proof
end

section
/-! PROOF. DATA: every answer (R266). -/

namespace Sys2Proof

open Machine

section

variable {sid : StreamId} {s : State} (flags : Byte) (payload : Bytes)

theorem receiveData_of_unknown (hget : tableGet s.streams sid = none) :
    receiveData sid flags payload s = .next (withRst sid s.cfg.params.rstInvalidStream s) := by
  simp only [receiveData, transition_unknown.2 hget, bareRst_eq]

variable {r : Stream} (hget : tableGet s.streams sid = some r)
include hget

theorem receiveData_of_not_live (hopened : r.state ≠ .opened) (hlocal : r.state ≠ .halfClosedLocal) :
    receiveData sid flags payload s = .next (afterStreamError sid s.cfg.params.rstProtocolError
      (.streamProtocolError .invalidTransition) s) := by
  simp only [receiveData, transition_recvFrame_of_not_live hget hopened hlocal, streamError_eq]

variable (hwf : tableWf s.streams = true) (hlive : r.state = .opened ∨ r.state = .halfClosedLocal)
include hwf hlive

theorem receiveData_of_windowExceeded
    (hover : r.recvWindow < payload.length ∨ s.sessionRecvWindow < payload.length) :
    receiveData sid flags payload s =
      .next (afterFatal (.flowControlViolation .recvWindowExceeded) s) := by
  simp only [receiveData, transition_recvFrame_of_live hget hwf hlive, hget, if_pos hover, fatal_eq]

variable (hstream : payload.length ≤ r.recvWindow) (hsession : payload.length ≤ s.sessionRecvWindow)
include hstream hsession

theorem receiveData_of_fits : receiveData sid flags payload s =
    .next (returnCredit sid payload.length
      (if finSet s.cfg.params flags then
        removeIfClosed sid (orElseSame (deliverData sid r payload true s)
          (transition sid .recvFin (deliverData sid r payload true s)))
      else deliverData sid r payload false s)) := by
  have hfits : ¬ (r.recvWindow < payload.length ∨ s.sessionRecvWindow < payload.length) :=
    not_or.2 ⟨hstream.not_gt, hsession.not_gt⟩
  simp only [receiveData, transition_recvFrame_of_live hget hwf hlive, hget, if_neg hfits,
    debitRecv_cfg, deliverData]
  by_cases hfin : finSet s.cfg.params flags = true <;> simp [hfin]

variable {flags}

theorem receiveData_of_noFin (hfin : flags &&& s.cfg.params.flagFin = 0) :
    receiveData sid flags payload s =
      .next (returnCredit sid payload.length (deliverData sid r payload false s)) := by
  rw [receiveData_of_fits flags payload hget hwf hlive hstream hsession,
    finSet_eq_false_iff.2 hfin, if_neg Bool.false_ne_true]

theorem receiveData_of_fin (hfin : flags &&& s.cfg.params.flagFin ≠ 0) :
    receiveData sid flags payload s = .next (returnCredit sid payload.length
      (removeIfClosed sid (orElseSame (deliverData sid r payload true s)
        (transition sid .recvFin (deliverData sid r payload true s))))) := by
  rw [receiveData_of_fits flags payload hget hwf hlive hstream hsession,
    finSet_eq_true_iff.2 hfin, if_pos rfl]

end

/-- Settles O17. Delivery goes through `deliverData`; what is left per case is the stream's record after
it, on which FIN and the credit depend. -/
theorem dataReceived : Obligations.DataReceived := by
  unfold Obligations.DataReceived
  intro s sid flags payload hwf hsid p n credited
  rw [exec_data s flags hsid payload]
  refine ⟨receiveData_of_unknown flags payload, fun r hget => receiveData_of_not_live flags payload hget,
    fun r hget hlive => receiveData_of_windowExceeded flags payload hget hwf hlive,
    ?noFin, ?finOpened, ?finLocal⟩
  case noFin =>
    intro r hget hlive hstream hsession hfin
    rw [receiveData_of_noFin payload hget hwf hlive hstream hsession hfin]
    by_cases hn : payload.length = 0
    · obtain rfl := List.length_eq_zero_iff.1 hn
      rw [deliverData_nil hwf hget]
      simp [n, credited, returnCredit_zero, emit]
    · rw [returnCredit_deliverData hwf hget hlive payload false hn]
      simp [n, credited, hn, creditSession, setQueue, emit]
  case finOpened =>
    intro r hget hopened hstream hsession hfin
    rw [receiveData_of_fin payload hget hwf (.inl hopened) hstream hsession hfin,
      finishPeer_of_opened (tableGet_deliverData sid r payload true s) hopened,
      returnCredit_of_not_live (by simp)]
    simp [n, credited, creditSession, deliverData, debitRecv, putStream, emit, tablePut_put]
  case finLocal =>
    intro r hget hlocal hstream hsession hfin
    rw [receiveData_of_fin payload hget hwf (.inr hlocal) hstream hsession hfin,
      finishPeer_of_halfClosedLocal (tableGet_deliverData sid r payload true s) hlocal,
      returnCredit_of_not_live (by simp)]
    simp [n, credited, creditSession, deliverData, debitRecv, putStream, closeStream, emit,
      tableErase_put]

end Sys2Proof
end

section
/-! PROOF. SETTINGS: the entries take effect in wire order, and the first bad one is session-fatal
(R267, R240). -/

namespace Sys2Proof

open Machine

/-! ### Moving the initial window -/

theorem withInitialWindow_self (s : State) : withInitialWindow s.peerInitialWindow s = s := by
  simp [withInitialWindow, tableMap]

/-- The last of two changes counts: each moves every send window by the difference to the one before. -/
theorem withInitialWindow_withInitialWindow (v w : Credit) (s : State) :
    withInitialWindow v (withInitialWindow w s) = withInitialWindow v s := by
  have hsum (x : Int) : x + ((w.val : Int) - s.peerInitialWindow.val) + ((v.val : Int) - w.val) =
      x + ((v.val : Int) - s.peerInitialWindow.val) := by omega
  simp only [withInitialWindow, tableMap, List.map_map, Function.comp_def, hsum]

/-- Whether an initial window fits does not depend on the ones set before it. -/
theorem windowFits_withInitialWindow {v : Word32} {w : Credit} {s : State} :
    windowFits v (withInitialWindow w s) ↔ windowFits v s := by
  simp only [windowFits, withInitialWindow, tableMap, List.forall_mem_map]
  refine and_congr_right fun _ => forall₂_congr fun e _ => ?_
  omega

theorem adjustInitialWindow_of_fits {v : Word32} {s : State} (h : windowFits v s) :
    ∃ w : Credit, w.val = v.toNat ∧ adjustInitialWindow v s = .ok (withInitialWindow w s) := by
  obtain ⟨hrange, hstreams⟩ := h
  have hlt : v.toNat < 2 ^ 31 := by omega
  exact ⟨⟨v.toNat, hlt⟩, rfl, adjustInitialWindow_eq_ok.2 ⟨hlt, hstreams, rfl⟩⟩

theorem adjustInitialWindow_of_range {v : Word32} {s : State} (h : 2 ^ 31 - 1 < v.toNat) :
    adjustInitialWindow v s = .error (.flowControlViolation .initialWindowRange) :=
  dif_neg (by omega)

theorem adjustInitialWindow_of_overflow {v : Word32} {s : State} (hrange : v.toNat ≤ 2 ^ 31 - 1)
    (h : ¬ windowFits v s) :
    adjustInitialWindow v s = .error (.flowControlViolation .windowOverflow) := by
  have hlt : v.toNat < 2 ^ 31 := by omega
  have hover : s.streams.any (fun e => decide
      (maxWindow < e.2.sendWindow + ((v.toNat : Int) - s.peerInitialWindow.val))) = true := by
    by_contra hnone
    simp only [List.any_eq_true, decide_eq_true_eq, not_exists, not_and, not_lt] at hnone
    exact h ⟨hrange, hnone⟩
  simp only [adjustInitialWindow, dif_pos hlt, if_pos hover]

/-! ### The entries, one at a time -/

section

variable {e : SettingsEntry} (rest : List SettingsEntry) {s : State}

theorem applySettings_limit (h : e.id = s.cfg.params.settingsMaxConcurrentStreams) :
    applySettings (e :: rest) s = applySettings rest { s with peerMaxStreams := some e.value } := by
  simp only [applySettings, if_pos h]

theorem applySettings_other (hlimit : e.id ≠ s.cfg.params.settingsMaxConcurrentStreams)
    (hwindow : e.id ≠ s.cfg.params.settingsInitialWindowSize) :
    applySettings (e :: rest) s = applySettings rest s := by
  simp only [applySettings, if_neg hlimit, if_neg hwindow]

variable (hlimit : e.id ≠ s.cfg.params.settingsMaxConcurrentStreams)
  (hwindow : e.id = s.cfg.params.settingsInitialWindowSize)
include hlimit hwindow

theorem applySettings_window {t : State} (h : adjustInitialWindow e.value s = .ok t) :
    applySettings (e :: rest) s = applySettings rest t := by
  simp only [applySettings, if_neg hlimit, if_pos hwindow, h]

theorem applySettings_badWindow {cause : FatalCause} (h : adjustInitialWindow e.value s = .error cause) :
    applySettings (e :: rest) s = .next (afterFatal cause s) := by
  simp only [applySettings, if_neg hlimit, if_pos hwindow, h, fatal_eq]

end

section

variable {p : Params} {e : SettingsEntry} (rest : List SettingsEntry)

theorem limitValues_cons_limit (h : e.id = p.settingsMaxConcurrentStreams) :
    limitValues p (e :: rest) = e.value :: limitValues p rest := by
  simp [limitValues, h]

theorem windowValues_cons_limit (h : e.id = p.settingsMaxConcurrentStreams) :
    windowValues p (e :: rest) = windowValues p rest := by
  simp [windowValues, h]

theorem limitValues_cons_of_ne (h : e.id ≠ p.settingsMaxConcurrentStreams) :
    limitValues p (e :: rest) = limitValues p rest := by
  simp [limitValues, h]

theorem windowValues_cons_window (hlimit : e.id ≠ p.settingsMaxConcurrentStreams)
    (hwindow : e.id = p.settingsInitialWindowSize) :
    windowValues p (e :: rest) = e.value :: windowValues p rest := by
  simp [windowValues, ← hwindow, hlimit]

theorem windowValues_cons_other (hwindow : e.id ≠ p.settingsInitialWindowSize) :
    windowValues p (e :: rest) = windowValues p rest := by
  simp [windowValues, hwindow]

end

/-! ### A run of good entries -/

/-- The state after good entries: the last limit, and the initial window `v`. -/
def afterSettings (good : List SettingsEntry) (v : Credit) (s : State) : State :=
  { withInitialWindow v s with
    peerMaxStreams := (limitValues s.cfg.params good).getLast?.or s.peerMaxStreams }

theorem windowFits_afterSettings {w : Word32} {good : List SettingsEntry} {v : Credit} {s : State} :
    windowFits w (afterSettings good v s) ↔ windowFits w s :=
  windowFits_withInitialWindow

/-- Good entries take effect, and what is behind them is applied to the state they leave. -/
theorem applySettings_append_of_fits {good : List SettingsEntry} {v : Credit} {s : State}
    (hfits : ∀ w ∈ windowValues s.cfg.params good, windowFits w s)
    (hlast : v.val = ((windowValues s.cfg.params good).getLast?.map (·.toNat)).getD
      s.peerInitialWindow.val) (rest : List SettingsEntry) :
    applySettings (good ++ rest) s = applySettings rest (afterSettings good v s) := by
  induction good generalizing s with
  | nil =>
    obtain rfl : v = s.peerInitialWindow := Fin.ext hlast
    simp [afterSettings, limitValues, withInitialWindow_self]
  | cons e good ih =>
    rw [List.cons_append]
    by_cases hlimit : e.id = s.cfg.params.settingsMaxConcurrentStreams
    · rw [windowValues_cons_limit good hlimit] at hfits hlast
      rw [applySettings_limit _ hlimit, ih (s := { s with peerMaxStreams := some e.value }) hfits hlast]
      congr 1
      simp [afterSettings, withInitialWindow, limitValues_cons_limit good hlimit,
        List.getLast?_cons, Option.or_some]
    by_cases hwindow : e.id = s.cfg.params.settingsInitialWindowSize
    · rw [windowValues_cons_window good hlimit hwindow] at hfits hlast
      obtain ⟨hfirst, hothers⟩ := List.forall_mem_cons.1 hfits
      obtain ⟨w, hw, hadjust⟩ := adjustInitialWindow_of_fits hfirst
      have hlast' : v.val = ((windowValues s.cfg.params good).getLast?.map (·.toNat)).getD w.val := by
        rw [hlast, hw, List.getLast?_cons]
        cases (windowValues s.cfg.params good).getLast? <;> rfl
      rw [applySettings_window _ hlimit hwindow hadjust,
        ih (s := withInitialWindow w s) (fun x hx => windowFits_withInitialWindow.2 (hothers x hx))
          hlast']
      simp only [afterSettings, withInitialWindow_withInitialWindow,
        limitValues_cons_of_ne good hlimit]
      rfl
    · rw [windowValues_cons_other good hwindow] at hfits hlast
      rw [applySettings_other _ hlimit hwindow, ih hfits hlast]
      simp only [afterSettings, limitValues_cons_of_ne good hlimit]

/-- Settles O21. The bad entry meets the state after the good ones, where it fits exactly when it fitted
before them. -/
theorem settingsReceived : Obligations.SettingsReceived := by
  unfold Obligations.SettingsReceived
  intro s flags good v p hfits hlast applied
  simp only [exec_settings]
  refine ⟨?good, fun e rest hlimit hwindow => ⟨fun hrange => ?range, fun hrange hover => ?overflow⟩⟩
  case good =>
    have h := applySettings_append_of_fits hfits hlast []
    rwa [List.append_nil] at h
  case range =>
    rw [applySettings_append_of_fits hfits hlast (e :: rest)]
    exact applySettings_badWindow (s := afterSettings good v s) rest hlimit hwindow
      (adjustInitialWindow_of_range hrange)
  case overflow =>
    rw [applySettings_append_of_fits hfits hlast (e :: rest)]
    exact applySettings_badWindow (s := afterSettings good v s) rest hlimit hwindow
      (adjustInitialWindow_of_overflow hrange fun h => hover (windowFits_afterSettings.1 h))

end Sys2Proof
end

section
/-! PROOF. GOAWAY: the local streams above the last-good ID are removed one after the other (R270). -/

namespace Sys2Proof

open Machine

/-- The filters of the two removals in one. -/
theorem filter_notMem_filter_notMem {α : Type} (key : α → StreamId) (gone more : List StreamId)
    (l : List α) :
    (l.filter fun x => decide (key x ∉ gone)).filter (fun x => decide (key x ∉ more)) =
      l.filter fun x => decide (key x ∉ gone ++ more) := by
  rw [List.filter_filter]
  congr 1
  funext x
  simp [Bool.and_comm]

/-- The unsent DATA bytes of the streams of `gone` in the queues: the refund of R226 for all of them. -/
def queuedDataOf (gone : List StreamId) (qs : TierQueues) : Nat :=
  ((qs.toList.flatten.filter fun e => decide (e.1 ∈ gone)).map fun e => dataSize e.2).sum

/-- The queues without the frames of the streams of `gone`. -/
def queuesWithout (gone : List StreamId) (qs : TierQueues) : TierQueues :=
  mapQueues (fun q => q.filter fun e => decide (e.1 ∉ gone)) qs

theorem withoutStreams_eq (gone : List StreamId) (s : State) : withoutStreams gone s =
    { s with
      streams := s.streams.filter fun e => decide (e.1 ∉ gone)
      tierq := queuesWithout gone s.tierq
      pending := s.pending.filter fun w => decide (w.sid ∉ gone)
      sessionSendWindow := min maxWindow (s.sessionSendWindow + queuedDataOf gone s.tierq) } := rfl

theorem queuedDataOf_nil (qs : TierQueues) : queuedDataOf [] qs = 0 := by
  simp only [queuedDataOf, List.not_mem_nil, decide_false, List.filter_false, List.map_nil,
    List.sum_nil]

theorem queuesWithout_nil (qs : TierQueues) : queuesWithout [] qs = qs :=
  Vector.toList_inj.1 (by simp [queuesWithout, mapQueues_toList])

theorem queuesWithout_queuesWithout (gone more : List StreamId) (qs : TierQueues) :
    queuesWithout more (queuesWithout gone qs) = queuesWithout (gone ++ more) qs := by
  refine Vector.toList_inj.1 ?_
  simp only [queuesWithout, mapQueues_toList, List.map_map, Function.comp_def,
    filter_notMem_filter_notMem fun e : QueueEntry => e.1]

/-- The refund in two parts: what the second removal gives back is what the first left. -/
theorem queuedDataOf_append (gone more : List StreamId) (qs : TierQueues) :
    queuedDataOf (gone ++ more) qs =
      queuedDataOf gone qs + queuedDataOf more (queuesWithout gone qs) := by
  have hleft : (queuesWithout gone qs).toList.flatten =
      qs.toList.flatten.filter fun e => decide (e.1 ∉ gone) := by
    rw [queuesWithout, mapQueues_toList, List.filter_flatten]
  simp only [queuedDataOf, hleft, List.filter_filter, List.mem_append, Bool.decide_or, decide_not]
  induction qs.toList.flatten with
  | nil => rfl
  | cons e rest ih =>
    by_cases hgone : e.1 ∈ gone
    · simp [hgone, ih, Nat.add_assoc]
    · by_cases hmore : e.1 ∈ more
      · simp [hgone, hmore, ih, Nat.add_left_comm]
      · simp [hgone, hmore, ih]

/-- Removing some streams and then more is removing them all: the cap on the refund may be reached at
either removal, and the credit that comes back later does not lower the window. -/
theorem withoutStreams_withoutStreams (gone more : List StreamId) (s : State) :
    withoutStreams more (withoutStreams gone s) = withoutStreams (gone ++ more) s := by
  have hcredit : min maxWindow (min maxWindow (s.sessionSendWindow + queuedDataOf gone s.tierq) +
        queuedDataOf more (queuesWithout gone s.tierq)) =
      min maxWindow (s.sessionSendWindow + queuedDataOf (gone ++ more) s.tierq) := by
    rw [queuedDataOf_append]
    omega
  simp only [withoutStreams_eq, queuesWithout_queuesWithout, hcredit,
    filter_notMem_filter_notMem fun e : StreamId × Stream => e.1,
    filter_notMem_filter_notMem PendingWrite.sid]

theorem withoutStreams_nil {s : State} (h : s.sessionSendWindow ≤ maxWindow) :
    withoutStreams [] s = s := by
  simp [withoutStreams_eq, queuedDataOf_nil, queuesWithout_nil, h]

theorem withoutStreams_emit (gone : List StreamId) (ev : Event) (s : State) :
    withoutStreams gone (emit ev s) = emit ev (withoutStreams gone s) := rfl

theorem abortStream_eq (sid : StreamId) (s : State) :
    abortStream sid s = emit (.onStreamClosed sid .aborted) (withoutStreams [sid] s) := by
  rw [abortStream, withoutStreams_one]

/-- The local streams among `sids` above the last-good ID: those the loop of R270 picks. -/
def localAbove (c : Cfg) (lastGood : StreamId) (sids : List StreamId) : List StreamId :=
  sids.filter fun sid => isLocal c.role sid && decide (lastGood.toNat < sid.toNat)

theorem localAbove_cons (c : Cfg) (lastGood sid : StreamId) (rest : List StreamId) :
    localAbove c lastGood (sid :: rest) =
      if isLocal c.role sid ∧ lastGood.toNat < sid.toNat then sid :: localAbove c lastGood rest
      else localAbove c lastGood rest := by
  simp [localAbove, List.filter_cons]

/-- The loop of R270: the streams it picks are removed together, with one event each. -/
theorem abortAbove_eq (lastGood : StreamId) (sids : List StreamId) {s : State}
    (h : s.sessionSendWindow ≤ maxWindow) :
    abortAbove lastGood sids s =
      emitAll ((localAbove s.cfg lastGood sids).map fun sid => .onStreamClosed sid .aborted)
        (withoutStreams (localAbove s.cfg lastGood sids) s) := by
  induction sids generalizing s with
  | nil => simp [abortAbove, localAbove, withoutStreams_nil h, emitAll]
  | cons sid rest ih =>
    rw [abortAbove, localAbove_cons]
    split
    next =>
      have hcap : (abortStream sid s).sessionSendWindow ≤ maxWindow := min_le_left _ _
      have hcfg : (abortStream sid s).cfg = s.cfg := rfl
      rw [ih hcap, hcfg, abortStream_eq, withoutStreams_emit, withoutStreams_withoutStreams]
      simp [emitAll, emit]
    next => exact ih h

theorem abortedBy_ascending {s : State} (h : tableWf s.streams = true) (lastGood : StreamId) :
    (abortedBy lastGood s).Pairwise fun a b => a.toNat < b.toNat := by
  have hkeys : (tableKeys s.streams).Pairwise fun a b => a.toNat < b.toNat :=
    List.pairwise_map.2 (List.pairwise_map.1 (tableWf_iff.1 h))
  exact hkeys.filter _

/-- The state in which the loop of R270 starts: the mode and the last-good ID are set and the
application is told. -/
def goawayTold (lastGood : StreamId) (status : Word32) (s : State) : State :=
  emit (.onGoaway lastGood (.peerGoaway status))
    { s with goaway := .received lastGood, mode := .goingAway }

theorem receiveGoaway_eq (lastGood : StreamId) (status : Word32) (s : State) :
    receiveGoaway lastGood status s =
      abortAbove lastGood (tableKeys s.streams) (goawayTold lastGood status s) := rfl

/-- Settles O24. The loop walks the keys of the table, which are ascending, and what it picks is
`abortedBy`. -/
theorem goawayReceived : Obligations.GoawayReceived := by
  unfold Obligations.GoawayReceived
  intro s flags lastGood status hwf hwindow
  refine ⟨abortedBy_ascending hwf lastGood, ?_⟩
  rw [exec_goaway, receiveGoaway_eq,
    abortAbove_eq lastGood _ (s := goawayTold lastGood status s) hwindow]
  simp [goawayTold, emitAll, emit, withoutStreams, abortedBy, localAbove]

end Sys2Proof
end

section
/-! PROOF. The pump sends what waits in the order `next()` takes it (R315, R222): one turn takes the head
of `sendOrder`, so as many turns as it is long empty the scheduler. -/

namespace Sys2Proof

open Machine

/-! ### The order of the frames that wait -/

/-- The first list that is not skipped as empty stands at the front of the flattened lists. -/
theorem flatten_of_lower_empty {α : Type} {L : List (List α)} {i : Nat} (hi : i < L.length)
    (hlower : ∀ j, (hj : j < i) → L[j] = []) : L.flatten = L[i] ++ (L.drop (i + 1)).flatten := by
  induction L generalizing i with
  | nil => cases hi
  | cons q L ih =>
    cases i with
    | zero => rfl
    | succ i =>
      have hq : q = [] := hlower 0 i.succ_pos
      have hrest := ih (Nat.lt_of_succ_lt_succ hi) fun j hj => hlower (j + 1) (Nat.succ_lt_succ hj)
      rw [List.flatten_cons, hq, List.nil_append, hrest]
      rfl

theorem sendOrder_of_tier {s : State} {t : Fin 8} (hurgent : s.urgent = [])
    (hlower : ∀ u < t, s.tierq[u] = []) :
    sendOrder s = s.tierq[t].map (·.2) ++ (s.tierq.toList.drop (t + 1)).flatten.map (·.2) := by
  have hflat := flatten_of_lower_empty (L := s.tierq.toList) (i := t) (by simp)
    fun j hj => hlower ⟨j, hj.trans t.isLt⟩ hj
  simp [sendOrder, hurgent, hflat]

theorem sendOrder_eq_nil_iff {s : State} : sendOrder s = [] ↔ s.urgent = [] ∧ s.tierq = emptyQueues := by
  constructor
  · intro h
    obtain ⟨hurgent, hflat⟩ : s.urgent = [] ∧ ∀ q ∈ s.tierq.toList, q = [] := by
      simpa [sendOrder] using h
    refine ⟨hurgent, tierq_ext fun t => ?_⟩
    rw [emptyQueues_getElem]
    exact hflat _ (by simp)
  · rintro ⟨hurgent, htiers⟩
    simp [sendOrder, hurgent, htiers]

theorem length_sendOrder (s : State) : (sendOrder s).length = queuedFrames s := by
  simp [sendOrder, queuedFrames, List.length_flatten, Function.comp_def]

/-- The lowest tier with a frame in it. -/
theorem exists_lowest_tier {qs : TierQueues} (h : qs ≠ emptyQueues) :
    ∃ t : Fin 8, qs[t] ≠ [] ∧ ∀ u < t, qs[u] = [] := by
  have hsome : ∃ t : Fin 8, qs[t] ≠ [] := by
    by_contra hall
    push Not at hall
    exact h (tierq_ext fun t => by rw [hall t, emptyQueues_getElem])
  obtain ⟨t, ht, hmin⟩ := wellFounded_lt.has_min {t : Fin 8 | qs[t] ≠ []} hsome
  exact ⟨t, ht, fun u hu => by_contra fun hne => hmin u hne hu⟩

/-- `next()` answers the head of `sendOrder` and leaves the tail. -/
theorem next_of_sendOrder {s : State} {f : Instr} {fs : List Instr} (h : sendOrder s = f :: fs) :
    ∃ t, next s = some (f, t) ∧ sendOrder t = fs := by
  cases hurgent : s.urgent with
  | cons g rest =>
    simp only [sendOrder, hurgent, List.cons_append, List.cons.injEq] at h
    obtain ⟨rfl, rfl⟩ := h
    exact ⟨_, next_of_urgent hurgent, rfl⟩
  | nil =>
    have hqs : s.tierq ≠ emptyQueues := fun hempty => by
      rw [sendOrder_eq_nil_iff.2 ⟨hurgent, hempty⟩] at h
      cases h
    obtain ⟨t, ht, hlower⟩ := exists_lowest_tier hqs
    obtain ⟨⟨sid, g⟩, rest, hq⟩ := List.exists_cons_of_ne_nil ht
    rw [sendOrder_of_tier hurgent hlower, hq, List.map_cons, List.cons_append, List.cons.injEq] at h
    obtain ⟨rfl, rfl⟩ := h
    refine ⟨_, next_of_tier hurgent hlower hq, ?_⟩
    have hlower' : ∀ u < t, (setQueue t rest s).tierq[u] = [] := fun u hu => by
      rw [setQueue_getElem, if_neg hu.ne', hlower u hu]
    rw [sendOrder_of_tier (s := setQueue t rest s) hurgent hlower', setQueue_getElem, if_pos rfl]
    simp [setQueue, Vector.toList_set, List.drop_set_of_lt]

/-! ### The turns of the pump -/

theorem txFrame_of_encodable {f : Instr} {s : State} (h : Encodable s.cfg f) :
    txFrame f s = .next (txItem (.txBytes (wireBytes s.cfg f)) s) := by
  obtain ⟨buf, hbuf⟩ := h
  simp only [txFrame, wireBytes, hbuf]

theorem pumpTurns_of_blocked {s : State} (h : s.txReady = false) (turns : Nat) :
    pumpTurns turns s = .next s := by
  cases turns <;> simp [pumpTurns, h]

/-- The state after the pump has sent everything that waits (R315). -/
def allSent (s : State) : State :=
  { s with
    urgent := []
    tierq := emptyQueues
    tx := s.tx ++ (sendOrder s).map (fun f => .txBytes (wireBytes s.cfg f)) }

theorem allSent_of_nil {s : State} (h : sendOrder s = []) : allSent s = s := by
  obtain ⟨hurgent, htiers⟩ := sendOrder_eq_nil_iff.1 h
  rw [allSent, h, List.map_nil, List.append_nil, ← hurgent, ← htiers]

/-- Sending the next frame first makes no difference to where the pump ends. -/
theorem allSent_of_next {s t : State} {f : Instr} (hnext : next s = some (f, t))
    (horder : sendOrder s = f :: sendOrder t) :
    allSent (txItem (.txBytes (wireBytes t.cfg f)) t) = allSent s := by
  have hsent : sendOrder (txItem (.txBytes (wireBytes t.cfg f)) t) = sendOrder t := rfl
  rw [allSent, allSent, hsent, horder, next_eq hnext]
  simp [txItem]

theorem pumpTurns_of_ready {s : State} (hready : s.txReady = true)
    (hall : ∀ f ∈ sendOrder s, Encodable s.cfg f) :
    pumpTurns (sendOrder s).length s = .next (allSent s) := by
  generalize horder : sendOrder s = fs at hall
  induction fs generalizing s with
  | nil => rw [allSent_of_nil horder]; rfl
  | cons f fs ih =>
    obtain ⟨t, hnext, rfl⟩ := next_of_sendOrder horder
    have hframe := next_eq hnext
    have hcfg : t.cfg = s.cfg := by rw [hframe]
    have hready' : t.txReady = true := by rw [hframe]; exact hready
    rw [List.forall_mem_cons, ← hcfg] at hall
    obtain ⟨hf, hrest⟩ := hall
    rw [← allSent_of_next hnext horder, ← ih (s := txItem _ t) hready' rfl hrest]
    simp only [List.length_cons, pumpTurns, hready, if_true, hnext, txFrame_of_encodable hf,
      andThen_next]

/-- Settles O35: the pump has one turn for each frame of `sendOrder`. -/
theorem pumpSendsAll : Obligations.PumpSendsAll := by
  unfold Obligations.PumpSendsAll
  intro s hall
  refine ⟨fun hready => ?_, fun hblocked => pumpTurns_of_blocked hblocked _⟩
  rw [pump, ← length_sendOrder, pumpTurns_of_ready hready hall, allSent]

end Sys2Proof
end

section
/-! PROOF. A command is taken between commands (R13), and runs on a session that is not over (R335). -/

namespace Sys2Proof

open Machine

theorem step_of_command {s : State} {c : Command} {rest : List Command} (hidle : s.phase = .idle)
    (hinbox : s.inbox = c :: rest) : step s = runCommand c { s with inbox := rest } := by
  simp only [step, hidle, takeCommand, hinbox]

theorem ended_eq_false {s : State} (hclosed : s.mode ≠ .closed) (hfault : s.mode ≠ .fault) :
    ended s = false := by
  simp [ended, hclosed, hfault]

theorem unlessEnded_of_live {s : State} (h : ended s = false) (k : Outcome) : unlessEnded s k = k := by
  simp [unlessEnded, h]

end Sys2Proof
end

section
/-! PROOF. `Close` tears the session down with the application's status (R312, R346). -/

namespace Sys2Proof

open Machine

theorem cmdClose_of_live {s : State} (h : ended s = false) (status : Word32) :
    cmdClose status s = .next (ret .ok (tornDown status (abortEvents s.streams) s)) := by
  have hflush := flushAndClose_discardAll s (abortEvents s.streams) status
  rw [cmdClose, unlessEnded_of_live h]
  exact congrArg (andThen · fun t => .next (ret .ok t)) hflush

/-- Settles O44. -/
theorem close : Obligations.Close := by
  unfold Obligations.Close
  intro s status rest hidle hinbox hclosed hfault
  rw [step_of_command hidle hinbox, runCommand,
    cmdClose_of_live (s := { s with inbox := rest }) (ended_eq_false hclosed hfault)]
  rfl

end Sys2Proof
end

section
/-! PROOF. `ResetStream`: the stream error procedure with the application's code (R304, R343). -/

namespace Sys2Proof

open Machine

section

variable {s : State} (hlive : ended s = false) {sid : StreamId} (code : Word32)
include hlive

theorem cmdResetStream_of_unknown (hget : tableGet s.streams sid = none) :
    cmdResetStream sid code s = .next (ret (.err .unknownStream) s) := by
  simp only [cmdResetStream, unlessEnded_of_live hlive, hget]

theorem cmdResetStream_of_known (hknown : (tableGet s.streams sid).isSome = true) :
    cmdResetStream sid code s =
      epilogueThen .ok (afterStreamError sid code (.resetLocal code) s) := by
  obtain ⟨r, hget⟩ := Option.isSome_iff_exists.1 hknown
  simp only [cmdResetStream, unlessEnded_of_live hlive, hget, streamError_eq]

end

/-- Settles O43. -/
theorem resetStream : Obligations.ResetStream := by
  unfold Obligations.ResetStream
  intro s sid code rest hidle hinbox hclosed hfault u
  have hlive : ended u = false := ended_eq_false hclosed hfault
  rw [step_of_command hidle hinbox]
  exact ⟨cmdResetStream_of_unknown hlive code, cmdResetStream_of_known hlive code⟩

end Sys2Proof
end

section
/-! PROOF. `SendData`: unknown stream, send after one's own FIN, acceptance (R302). -/

namespace Sys2Proof

open Machine

theorem isData_iff (f : Instr) : isData f = true ↔ f.controlType? = none := by
  cases f <;> simp [isData, Instr.controlType?]

/-- The result test of R302 line 7. -/
theorem dataWaiting_iff {sid : StreamId} {s : State} : dataWaiting sid s = true ↔
    (∃ w ∈ s.pending, w.sid = sid) ∨
      ∃ q ∈ s.tierq.toList, ∃ e ∈ q, e.1 = sid ∧ e.2.controlType? = none := by
  simp only [dataWaiting, Bool.or_eq_true, List.any_eq_true, Bool.and_eq_true, decide_eq_true_eq,
    isData_iff, List.mem_flatten]
  refine or_congr Iff.rfl ⟨?_, ?_⟩
  · rintro ⟨e, ⟨q, hq, he⟩, hdata⟩
    exact ⟨q, hq, e, he, hdata⟩
  · rintro ⟨q, hq, e, he, hdata⟩
    exact ⟨e, ⟨q, hq, he⟩, hdata⟩

section

variable {s : State} (hlive : ended s = false) {sid : StreamId} (bytes : Bytes) (fin : Bool)
include hlive

theorem cmdSendData_of_unknown (hget : tableGet s.streams sid = none) :
    cmdSendData sid bytes fin s = .next (ret (.err .unknownStream) s) := by
  simp only [cmdSendData, unlessEnded_of_live hlive, hget]

variable {r : Stream} (hget : tableGet s.streams sid = some r)
include hget

theorem cmdSendData_of_finished
    (hfinished : (r.state ≠ .opened ∧ r.state ≠ .halfClosedRemote) ∨ r.localFinQueued = true) :
    cmdSendData sid bytes fin s = epilogueThen (.err .invalidTransition)
      (afterStreamError sid s.cfg.params.rstProtocolError
        (.streamProtocolError .invalidTransition) s) := by
  simp only [cmdSendData, unlessEnded_of_live hlive, hget, if_pos hfinished, streamError_eq]

theorem cmdSendData_of_sendable (hsend : r.state = .opened ∨ r.state = .halfClosedRemote)
    (hfin : r.localFinQueued = false) :
    cmdSendData sid bytes fin s = acceptWrite sid r bytes fin s := by
  have hok : ¬ ((r.state ≠ .opened ∧ r.state ≠ .halfClosedRemote) ∨ r.localFinQueued = true) := by
    rw [hfin]
    tauto
  simp only [cmdSendData, unlessEnded_of_live hlive, hget, if_neg hok]

end

/-- The accepted write as one state before the epilogue (R302 lines 4 and 5). -/
theorem acceptWrite_eq (sid : StreamId) (r : Stream) (bytes : Bytes) (fin : Bool) (s : State) :
    acceptWrite sid r bytes fin s =
      andThen (epilogue { s with
          pending := s.pending ++ [⟨sid, bytes, fin⟩]
          streams := if fin then tablePut s.streams sid { r with localFinQueued := true }
            else s.streams })
        fun t => .next (ret (if dataWaiting sid t then .pending else .ok) t) := by
  cases fin <;> rfl

/-- Settles O42. -/
theorem sendData : Obligations.SendData := by
  unfold Obligations.SendData
  intro s sid bytes fin rest hidle hinbox hclosed hfault u
  have hlive : ended u = false := ended_eq_false hclosed hfault
  rw [step_of_command hidle hinbox]
  refine ⟨cmdSendData_of_unknown hlive bytes fin,
    fun r => cmdSendData_of_finished hlive bytes fin, fun r hget hsend hfin => ?_⟩
  have haccept : runCommand (.sendData sid bytes fin) u = acceptWrite sid r bytes fin u :=
    cmdSendData_of_sendable hlive bytes fin hget hsend hfin
  rw [haccept, acceptWrite_eq]
  simp only [dataWaiting_iff]
  rfl

end Sys2Proof
end

section
/-! PROOF. `OpenStream`: its refusals, the tier fault, and the stream it opens (R300, R301). -/

namespace Sys2Proof

open Machine

/-! ### The tests of R300 -/

theorem goneAway_eq_true {s : State} {g : StreamId} (hgoaway : s.goaway = .received g)
    (hlt : g.toNat < s.nextStreamId) : goneAway s = true := by
  simp [goneAway, hgoaway, hlt]

theorem goneAway_eq_false {s : State}
    (h : ∀ g, s.goaway = .received g → s.nextStreamId ≤ g.toNat) : goneAway s = false := by
  unfold goneAway
  split
  next g hg => simpa using h g hg
  next => rfl
  next => rfl

theorem atPeerLimit_iff {s : State} :
    atPeerLimit s = true ↔ ∃ m, s.peerMaxStreams = some m ∧ m.toNat ≤ countLocal s := by
  cases hm : s.peerMaxStreams <;> simp [atPeerLimit, hm]

/-- The resource tests of R300 lines 4 to 6: no ID is left, the header block is too long, or the peer's
limit is reached. -/
def exhausted (hb : Bytes) (s : State) : Prop :=
  maxStreamId < s.nextStreamId ∨ maxPayload < 10 + hb.length ∨
    ∃ m, s.peerMaxStreams = some m ∧ m.toNat ≤ countLocal s

/-! ### The tier policy (R301) -/

theorem tierPolicy_of_debug {c : Cfg} {priority : Nat} (hrange : nTiers c.version ≤ priority)
    (hbuild : c.build = .debug) : tierPolicy c priority = none := by
  simp [tierPolicy, hrange.not_gt, hbuild]

theorem nTiers_pos (r : Revision) : 0 < nTiers r := by
  cases r <;> decide

theorem nTiers_le (r : Revision) : nTiers r ≤ 8 := by
  cases r <;> decide

/-- In range, or in a release build, the policy answers the priority clamped to the last tier. -/
theorem tierPolicy_of_clamped {c : Cfg} {priority : Nat} {tier : Fin 8}
    (hallowed : priority < nTiers c.version ∨ c.build = .release)
    (htier : tier.val = min priority (nTiers c.version - 1)) : tierPolicy c priority = some tier := by
  have hpos := nTiers_pos c.version
  have hle := nTiers_le c.version
  by_cases hrange : priority < nTiers c.version
  · rw [tierPolicy, if_pos hrange, Option.some_inj, Fin.ext_iff, Fin.val_ofNat]
    omega
  · have hbuild := hallowed.resolve_left hrange
    rw [tierPolicy, if_neg hrange, hbuild, Option.some_inj, Fin.ext_iff, Fin.val_ofNat]
    omega

theorem exists_clampedTier (r : Revision) (priority : Nat) :
    ∃ tier : Fin 8, tier.val = min priority (nTiers r - 1) := by
  have hpos := nTiers_pos r
  have hle := nTiers_le r
  exact ⟨⟨min priority (nTiers r - 1), by omega⟩, rfl⟩

/-! ### The answers of `OpenStream`, line by line -/

section

variable {s : State} (hlive : ended s = false) {priority : Nat} (hb : Bytes)
include hlive

theorem cmdOpenStream_of_goneAway (hgone : goneAway s = true) :
    cmdOpenStream priority hb s = .next (ret (.err .goingAway) s) := by
  simp only [cmdOpenStream, unlessEnded_of_live hlive, if_pos hgone]

variable (hstay : goneAway s = false)
include hstay

theorem cmdOpenStream_of_tierFault (htier : tierPolicy s.cfg priority = none) :
    cmdOpenStream priority hb s = .next (ret (.fault .tierRange) { s with mode := .fault }) := by
  simp [cmdOpenStream, unlessEnded_of_live hlive, hstay, htier]

variable {hb} {tier : Fin 8} (htier : tierPolicy s.cfg priority = some tier)
include htier

/-- The three tests answer the same, so their order does not show. -/
theorem cmdOpenStream_of_exhausted (hex : exhausted hb s) :
    cmdOpenStream priority hb s = .next (ret (.err .resourceExhaustion) s) := by
  rw [exhausted, ← atPeerLimit_iff] at hex
  obtain hid | hlong | hlimit := hex
  · simp [cmdOpenStream, unlessEnded_of_live hlive, hstay, htier, hid]
  · simp [cmdOpenStream, unlessEnded_of_live hlive, hstay, htier, hlong]
  · simp [cmdOpenStream, unlessEnded_of_live hlive, hstay, htier, hlimit]

theorem cmdOpenStream_of_room (hroom : ¬ exhausted hb s) :
    cmdOpenStream priority hb s = openLocal tier hb s := by
  rw [exhausted, ← atPeerLimit_iff, not_or, not_or] at hroom
  obtain ⟨hid, hlong, hlimit⟩ := hroom
  simp [cmdOpenStream, unlessEnded_of_live hlive, hstay, htier, hid, hlong, hlimit]

end

/-! ### The new stream -/

/-- The next local ID is one of ours and has not been used (R22, R38). -/
theorem nextStreamId_fresh {s : State} (h : TableInv s) {sid : StreamId}
    (hsid : sid.toNat = s.nextStreamId) :
    sid ≠ 0 ∧ isLocal s.cfg.role sid = true ∧ tableGet s.streams sid = none := by
  have hlocal : isLocal s.cfg.role sid = true := by
    rw [isLocal, hsid, h.nextParity, decide_eq_true rfl]
  refine ⟨?_, hlocal, tableGet_eq_none_iff.2 fun e he heq => ?_⟩
  · rintro rfl
    exact h.nextPositive.ne hsid
  · have hbelow := h.localBelow e he (by rw [heq, hlocal])
    rw [heq, hsid] at hbelow
    exact hbelow.false

/-- A stream of our own after its SYN_STREAM has been sent (R192, R194). -/
theorem openOurs_eq {sid : StreamId} {s : State} (hsid : sid ≠ 0)
    (hlocal : isLocal s.cfg.role sid = true) (hget : tableGet s.streams sid = none) (tier : Fin 8) :
    orElseSame (orElseSame s (openStream sid tier .ours s))
        (transition sid .sendSyn (orElseSame s (openStream sid tier .ours s))) =
      putStream sid { freshStream tier s with state := .opened } s := by
  have hopen : openStream sid tier .ours s = .ok (putStream sid (freshStream tier s) s) :=
    openStream_eq_ok.2 ⟨hsid, hlocal, hget, rfl⟩
  have hsyn : transition sid .sendSyn (putStream sid (freshStream tier s) s) =
      .ok (putStream sid { freshStream tier s with state := .opened }
        (putStream sid (freshStream tier s) s)) :=
    transition_eq_ok.2 ⟨freshStream tier s, .opened, tableGet_put_self _ _ _, rfl, rfl⟩
  rw [hopen, orElseSame_ok, hsyn, orElseSame_ok]
  simp only [putStream, tablePut_put]

/-- Lines 7 to 11 of R300 as one state before the epilogue. -/
theorem openLocal_eq {s : State} {sid : StreamId} (hid : sid.toNat = s.nextStreamId) (hsid : sid ≠ 0)
    (hlocal : isLocal s.cfg.role sid = true) (hget : tableGet s.streams sid = none) (tier : Fin 8)
    (hb : Bytes) :
    openLocal tier hb s = epilogueThen (.okId sid) { s with
      nextStreamId := s.nextStreamId + 2
      streams := tablePut s.streams sid { freshStream tier s with state := .opened }
      tierq := s.tierq.set tier (s.tierq[tier] ++
        [(sid, .synStream (wireVersion s.cfg) 0 sid 0 tier hb)]) } := by
  have hofNat : BitVec.ofNat 31 s.nextStreamId = sid := by
    rw [← hid, BitVec.ofNat_toNat, BitVec.setWidth_eq]
  have hopen := openOurs_eq (s := { s with nextStreamId := s.nextStreamId + 2 }) hsid hlocal hget tier
  simp only [openLocal, hofNat, hopen]
  rw [enqueue_of_get (tableGet_put_self _ _ _)]
  rfl

/-! ### The obligation, in a namespace of its own: `openStream` is also the operation of R192 -/

namespace Commands

/-- Settles O41: the lines of R300 in their order. The ID the last one opens is free by the table
invariant. -/
theorem openStream : Obligations.OpenStream := by
  unfold Obligations.OpenStream
  intro s priority hb rest hidle hinbox hclosed hfault hinv u n _
  have hlive : ended u = false := ended_eq_false hclosed hfault
  rw [step_of_command hidle hinbox]
  refine ⟨fun g hg hlt => cmdOpenStream_of_goneAway hlive hb (goneAway_eq_true hg hlt),
    fun hstay => ?_⟩
  have hstay' : goneAway u = false := goneAway_eq_false hstay
  refine ⟨fun hrange hbuild => cmdOpenStream_of_tierFault hlive hb hstay'
    (tierPolicy_of_debug hrange hbuild), fun hallowed => ⟨fun hex => ?_, ?_⟩⟩
  · obtain ⟨tier, htier⟩ := exists_clampedTier s.cfg.version priority
    exact cmdOpenStream_of_exhausted hlive hstay' (tierPolicy_of_clamped hallowed htier) hex
  · intro hroom sid tier hid htier
    obtain ⟨hsid, hlocal, hget⟩ := nextStreamId_fresh hinv hid
    have hopen : runCommand (.openStream priority hb) u = openLocal tier hb u :=
      cmdOpenStream_of_room hlive hstay' (tierPolicy_of_clamped hallowed htier) hroom
    rw [hopen, openLocal_eq (s := u) hid hsid hlocal hget tier hb]
    rfl

end Commands

end Sys2Proof
end

section
/-! PROOF. The frame codec read both ways (R177): what `encode` writes decodes to the frame, and what
decodes is what `encode` writes. -/

namespace Sys2Proof

open Machine

/-! ### The priority byte (R99, R147) -/

/-- A byte is its top bits before the `priShift` bits that must be 0. -/
theorem priMask_and_shift (r : Revision) (b : Byte) :
    ((b &&& priMask r) >>> priShift r).toNat = b.toNat / 2 ^ priShift r := by
  have hbits : (b &&& priMask r) >>> priShift r = b >>> priShift r := by
    cases r <;> decide +revert
  rw [hbits, BitVec.toNat_ushiftRight, Nat.shiftRight_eq_div_pow]

theorem topBits_lt (r : Revision) (b : Byte) : b.toNat / 2 ^ priShift r < nTiers r := by
  have := b.isLt
  cases r <;> simp only [priShift, nTiers] <;> omega

theorem tierOfByte_eq (r : Revision) (b : Byte) :
    tierOfByte r b = Fin.ofNat 8 (b.toNat / 2 ^ priShift r) := by
  rw [tierOfByte, priMask_and_shift]

theorem tierOfByte_val (r : Revision) (b : Byte) :
    (tierOfByte r b).val = b.toNat / 2 ^ priShift r := by
  have hlt := topBits_lt r b
  have hle := nTiers_le r
  rw [tierOfByte_eq, Fin.val_ofNat, Nat.mod_eq_of_lt (by omega)]

theorem withinMask_priMask_iff {r : Revision} {b : Byte} :
    withinMask (priMask r) b = true ↔ b.toNat % 2 ^ priShift r = 0 := by
  have hbits : (b &&& ~~~priMask r).toNat = b.toNat % 2 ^ priShift r := by
    rw [BitVec.toNat_and, ← Nat.and_two_pow_sub_one_eq_mod]
    cases r <;> rfl
  rw [withinMask, decide_eq_true_iff, ← BitVec.toNat_inj, hbits]
  rfl

/-- A priority byte without a bit below the tier is the byte of its tier. -/
theorem byteOfTier_tierOfByte {r : Revision} {b : Byte} (h : withinMask (priMask r) b = true) :
    byteOfTier r (tierOfByte r b).val = b := by
  have hmod := withinMask_priMask_iff.1 h
  have hdiv := Nat.div_add_mod b.toNat (2 ^ priShift r)
  apply BitVec.eq_of_toNat_eq
  rw [tierOfByte_val, byteOfTier_toNat (topBits_lt r b), Nat.mul_comm]
  omega

/-! ### Reading a payload back (R149) -/

theorem readTier_of_memRead {F : Bytes} {r : Revision} {off : Nat} {tier : Fin 8}
    (htier : tier.val < nTiers r) (h : memRead F off 1 = .ok (tier.val * 2 ^ priShift r)) :
    readTier F r off = .ok tier := by
  have hbyte := byteOfTier_toNat htier
  refine readTier_eq_ok.2 ⟨byteOfTier r tier.val, by rw [hbyte, h], ?_, Fin.ext ?_⟩
  · rw [withinMask_priMask_iff, hbyte, Nat.mul_mod_left]
  · rw [tierOfByte_val, hbyte, Nat.mul_div_cancel _ (by positivity)]

/-- Entries that stand one after the other from `off` are read as they are (R103). -/
theorem readEntries_of_memRead {F : Bytes} {entries : List SettingsEntry} {off : Nat}
    (h : ∀ k e, entries[k]? = some e → memRead F (off + 8 * k) 1 = .ok e.eflags.toNat ∧
      memRead F (off + 8 * k + 1) 3 = .ok e.id.toNat ∧
      memRead F (off + 8 * k + 4) 4 = .ok e.value.toNat) :
    readEntries F entries.length off = .ok entries := by
  induction entries generalizing off with
  | nil => rfl
  | cons e rest ih =>
    obtain ⟨heflags, hid, hvalue⟩ := h 0 e rfl
    have hrest : readEntries F rest.length (off + 8) = .ok rest := ih fun k e' he => by
      have := h (k + 1) e' he
      rwa [show off + 8 * (k + 1) = off + 8 + 8 * k by omega] at this
    simp only [Nat.mul_zero, Nat.add_zero] at heflags hid hvalue
    simp [readEntries, heflags, hid, hvalue, hrest, bind, Except.bind]

/-- The fields `encode` wrote are those of the frame, so its body reads as the frame (R149). -/
theorem decodeBody_of_encode {p : Params} {build : Build} {f : Instr} {ver : VersionTag}
    {k : ControlType} {r : Revision} {F : Bytes} (hver : f.ver? = some ver)
    (hk : f.controlType? = some k) (hr : revisionOf p ver = some r) (htier : f.tierOk p = true)
    (h : encode p build f = .bytes F) : decodeBody F ver r f.flags k = .ok f := by
  obtain ⟨-, -, -, hfields⟩ := encodedFields p build f F h
  cases f with
  | data => cases hk
  | synStream ver' flags sid assoc tier hb =>
    cases hver
    cases hk
    obtain ⟨hsid, hassoc, hpri, hzero, hrest⟩ := hfields
    have hlt : tier.val < nTiers r := by simpa [Instr.tierOk, Instr.ver?, Instr.tier?, hr] using htier
    have hbyte := hpri r hr
    rw [Nat.min_eq_left (by omega)] at hbyte
    simp [decodeBody, readStreamId_eq_ok.2 hsid, readStreamId_eq_ok.2 hassoc,
      readTier_of_memRead hlt hbyte, readZero_eq_ok.2 hzero, hrest, Instr.flags, bind, Except.bind]
  | synReply =>
    cases hver
    cases hk
    obtain ⟨hsid, hrest⟩ := hfields
    simp [decodeBody, readStreamId_eq_ok.2 hsid, hrest, Instr.flags, bind, Except.bind]
  | rstStream | goaway =>
    cases hver
    cases hk
    obtain ⟨hsid, hstatus⟩ := hfields
    simp [decodeBody, readStreamId_eq_ok.2 hsid, readWord_eq_ok.2 hstatus, Instr.flags, bind,
      Except.bind]
  | settings ver' flags entries =>
    cases hver
    cases hk
    obtain ⟨hcount, hentries⟩ := hfields
    have hread : readEntries F entries.length 12 = .ok entries :=
      readEntries_of_memRead fun k e he => by
        obtain ⟨heflags, hid, hvalue⟩ := hentries k e he
        rw [show 12 + 8 * k + 1 = 13 + 8 * k by omega, show 12 + 8 * k + 4 = 16 + 8 * k by omega]
        exact ⟨heflags, hid, hvalue⟩
    simp [decodeBody, hcount, hread, Instr.flags, bind, Except.bind]
  | ping =>
    cases hver
    cases hk
    simp [decodeBody, readWord_eq_ok.2 hfields, Instr.flags, bind, Except.bind]
  | headers ver' flags sid tier hb =>
    cases hver
    cases hk
    obtain ⟨hsid, hpri, hzero, hrest⟩ := hfields
    have hlt : tier.val < nTiers r := by simpa [Instr.tierOk, Instr.ver?, Instr.tier?, hr] using htier
    have hbyte := hpri r hr
    rw [Nat.min_eq_left (by omega)] at hbyte
    simp [decodeBody, readStreamId_eq_ok.2 hsid, readTier_of_memRead hlt hbyte,
      readZero_eq_ok.2 hzero, hrest, Instr.flags, bind, Except.bind]
  | windowUpdate =>
    cases hver
    cases hk
    obtain ⟨hsid, hdelta⟩ := hfields
    simp [decodeBody, readStreamId_eq_ok.2 hsid, readDelta_eq_ok.2 hdelta, Instr.flags, bind,
      Except.bind]

/-- The length of an encoded frame is one its type may have (R146). -/
theorem lengthAllowed_of_encode {p : Params} {build : Build} {f : Instr} {k : ControlType}
    {F : Bytes} (hk : f.controlType? = some k) (h : encode p build f = .bytes F) :
    lengthAllowed F f.plen k = true := by
  cases f with
  | data => cases hk
  | settings =>
    cases hk
    obtain ⟨-, -, -, hcount, -⟩ := encodedFields p build _ F h
    obtain ⟨-, hcount⟩ := memRead_eq_ok.1 hcount
    simp [lengthAllowed, Instr.plen, hcount]
  | synStream | synReply | rstStream | ping | goaway | headers | windowUpdate =>
    cases hk
    simp [lengthAllowed, Instr.plen]

/-- A tier in range does not raise, so a well-formed control frame has a payload (R174). -/
theorem encodePayload_of_tierOk {p : Params} (build : Build) {f : Instr} {ver : VersionTag}
    {r : Revision} (hver : f.ver? = some ver) (hr : revisionOf p ver = some r)
    (htier : f.tierOk p = true) : ∃ payload, encodePayload build r f = some payload := by
  cases f with
  | synStream | headers =>
    cases hver
    have hlt := of_decide_eq_true (by simpa [Instr.tierOk, Instr.ver?, Instr.tier?, hr] using htier)
    exact ⟨_, by rw [encodePayload, priorityByte_of_lt build hlt]; rfl⟩
  | data | synReply | rstStream | settings | ping | goaway | windowUpdate => exact ⟨_, rfl⟩

/-- `WF(f)` condition by condition (R171). -/
theorem Instr.wf_iff {p : Params} {f : Instr} : f.wf p = true ↔
    flagsLegal p f = true ∧ f.plen ≤ maxPayload ∧ f.versionKnown p = true := by
  simp only [Instr.wf, Bool.and_eq_true, decide_eq_true_eq, and_assoc]

/-- Settles O1: a data frame is read whole; a control frame by its header, its length and its body. -/
theorem decodeInvertsEncode : Obligations.DecodeInvertsEncode := by
  unfold Obligations.DecodeInvertsEncode
  intro p build f hp hwf htier
  obtain ⟨hflags, hlen, hknown⟩ := Instr.wf_iff.1 hwf
  obtain ⟨sid, flags, payload, rfl⟩ | ⟨ver, k, hver, hk⟩ := f.eq_data_or_control
  · exact ⟨_, encode_data build hflags hlen, decode_dataFrame rfl hlen hflags⟩
  · rw [Instr.versionKnown, hver] at hknown
    obtain ⟨r, hr⟩ := Option.isSome_iff_exists.1 hknown
    obtain ⟨payload, hpay⟩ := encodePayload_of_tierOk build hver hr htier
    have henc := encode_control build hflags hlen hver hk
    rw [hr, Option.elim_some, hpay, Option.elim_some] at henc
    have hplen := encodePayload_length hpay
    have hmask : withinMask (flagsMask p true) f.flags = true := by
      simpa [flagsLegal, hk] using hflags
    have hlegal := lengthLegal_eq (length_of_encode henc) k
    rw [lengthAllowed_of_encode hk henc, ← hplen] at hlegal
    have hbody := decodeBody_of_encode hver hk hr htier henc
    refine ⟨_, henc, ?_⟩
    rw [← hplen] at hbody ⊢
    rw [decode_controlFrame hp (r := r) (by rw [versionTag_of_revisionOf hr]) (hplen ▸ hlen) hmask
      hlegal, versionTag_of_revisionOf hr, hbody]

/-! ### Writing back what was read (R177 (1)) -/

/-- What was read at an offset is written back by the same number of bytes (R11). -/
theorem drop_of_memRead {F : Bytes} {off n v : Nat} (h : memRead F off n = .ok v) :
    F.drop off = beBytes n v ++ F.drop (off + n) := by
  obtain ⟨hin, rfl⟩ := memRead_eq_ok.1 h
  have hlen : ((F.drop off).take n).length = n := by simp; omega
  have hwrite := beBytes_beValue ((F.drop off).take n)
  rw [hlen] at hwrite
  rw [hwrite, ← List.drop_drop, List.take_append_drop]

theorem beBytes_one (b : Byte) : beBytes 1 b.toNat = [b] := by
  simp [beBytes]

/-- A sequence of reads answers exactly when the first does and the rest does on its value. -/
theorem bind_eq_ok {ε α β : Type} {x : Except ε α} {f : α → Except ε β} {b : β} :
    (x >>= f) = .ok b ↔ ∃ a, x = .ok a ∧ f a = .ok b := by
  cases x <;> simp [bind, Except.bind]

/-- The entries that were read are the bytes they were read from (R103). -/
theorem drop_of_readEntries {F : Bytes} {count off : Nat} {entries : List SettingsEntry}
    (h : readEntries F count off = .ok entries) :
    entries.length = count ∧
      F.drop off = entries.flatMap encodeEntry ++ F.drop (off + 8 * count) := by
  induction count generalizing off entries with
  | zero =>
    cases h
    exact ⟨rfl, rfl⟩
  | succ count ih =>
    simp only [readEntries, bind_eq_ok, Except.ok.injEq] at h
    obtain ⟨eflags, heflags, id, hid, value, hvalue, rest, hrest, rfl⟩ := h
    obtain ⟨rfl, htail⟩ := ih hrest
    have h1 : eflags < 2 ^ 8 := memRead_lt heflags
    have h3 : id < 2 ^ 24 := memRead_lt hid
    have h4 : value < 2 ^ 32 := memRead_lt hvalue
    have hentry : encodeEntry ⟨BitVec.ofNat 8 eflags, BitVec.ofNat 24 id, BitVec.ofNat 32 value⟩ =
        beBytes 1 eflags ++ beBytes 3 id ++ beBytes 4 value := by
      simp only [encodeEntry, BitVec.toNat_ofNat, Nat.mod_eq_of_lt h1, Nat.mod_eq_of_lt h3,
        Nat.mod_eq_of_lt h4]
    refine ⟨rfl, ?_⟩
    rw [drop_of_memRead heflags, drop_of_memRead hid, drop_of_memRead hvalue,
      show off + 1 + 3 + 4 = off + 8 by omega, htail, List.flatMap_cons, hentry,
      show off + 8 * (rest.length + 1) = off + 8 + 8 * rest.length by omega]
    simp only [List.append_assoc]

/-- The reads of a priority byte and the reserved byte behind it, written back (R147, R174). -/
theorem drop_of_readTier {F : Bytes} {r : Revision} {off : Nat} {tier : Fin 8}
    (htier : readTier F r off = .ok tier) (hzero : readZero F (off + 1) = .ok ()) :
    tier.val < nTiers r ∧ F.drop off = [byteOfTier r tier.val, 0] ++ F.drop (off + 2) := by
  obtain ⟨b, hb, hmask, rfl⟩ := readTier_eq_ok.1 htier
  rw [byteOfTier_tierOfByte hmask, drop_of_memRead hb, drop_of_memRead (readZero_eq_ok.1 hzero),
    beBytes_one]
  exact ⟨(tierOfByte_val r b).trans_lt (topBits_lt r b), rfl⟩

/-- Nothing stands behind the last field of a frame of exactly its length. -/
theorem drop_eq_nil {F : Bytes} {n : Nat} (h : F.length = n) : F.drop n = [] :=
  List.drop_eq_nil_of_le h.le

/-- What a body reads as: a frame of the header's version, flags and type, whose tier is in range and
whose payload is the bytes that were read (R147, R149, R175). -/
structure ReadsAs (F : Bytes) (ver : VersionTag) (r : Revision) (flags : Byte) (k : ControlType)
    (f : Instr) : Prop where
  ver : f.ver? = some ver
  flags : f.flags = flags
  type : f.controlType? = some k
  tier : ∀ t, f.tier? = some t → t.val < nTiers r
  payload : ∀ build, encodePayload build r f = some (F.drop 8)

theorem readsAs_of_decodeBody {F : Bytes} {n : Nat} {ver : VersionTag} {r : Revision} {flags : Byte}
    {k : ControlType} {f : Instr} (hlen : F.length = 8 + n) (hok : lengthAllowed F n k = true)
    (h : decodeBody F ver r flags k = .ok f) : ReadsAs F ver r flags k f := by
  cases k <;> simp only [decodeBody, bind_eq_ok, Except.ok.injEq] at h <;>
    replace hok := of_decide_eq_true hok
  case synStream =>
    obtain ⟨sid, hsid, assoc, hassoc, tier, htier, _, hzero, rfl⟩ := h
    obtain ⟨hlt, hpri⟩ := drop_of_readTier htier hzero
    have hdrop : F.drop 8 = beBytes 4 sid.toNat ++ (beBytes 4 assoc.toNat ++
        ([byteOfTier r tier.val, 0] ++ F.drop 18)) := by
      rw [drop_of_memRead (readStreamId_eq_ok.1 hsid), drop_of_memRead (readStreamId_eq_ok.1 hassoc),
        hpri]
    refine ⟨rfl, rfl, rfl, fun t ht => Option.some_inj.1 ht ▸ hlt, fun build => ?_⟩
    rw [encodePayload, priorityByte_of_lt build hlt, Option.map_some, hdrop]
    simp only [List.append_assoc]
  case synReply =>
    obtain ⟨sid, hsid, rfl⟩ := h
    refine ⟨rfl, rfl, rfl, nofun, fun build => ?_⟩
    rw [encodePayload, drop_of_memRead (readStreamId_eq_ok.1 hsid)]
  case rstStream | goaway =>
    obtain ⟨sid, hsid, status, hstatus, rfl⟩ := h
    refine ⟨rfl, rfl, rfl, nofun, fun build => ?_⟩
    rw [encodePayload, drop_of_memRead (readStreamId_eq_ok.1 hsid),
      drop_of_memRead (readWord_eq_ok.1 hstatus), drop_eq_nil (by omega), List.append_nil]
  case settings =>
    obtain ⟨count, hcount, entries, hentries, rfl⟩ := h
    obtain ⟨-, hvalue⟩ := memRead_eq_ok.1 hcount
    obtain ⟨hnum, hdrop⟩ := drop_of_readEntries hentries
    refine ⟨rfl, rfl, rfl, nofun, fun build => ?_⟩
    rw [encodePayload, drop_of_memRead hcount, hdrop, drop_eq_nil (by omega), List.append_nil, hnum]
  case ping =>
    obtain ⟨id, hid, rfl⟩ := h
    refine ⟨rfl, rfl, rfl, nofun, fun build => ?_⟩
    rw [encodePayload, drop_of_memRead (readWord_eq_ok.1 hid), drop_eq_nil (by omega),
      List.append_nil]
  case headers =>
    obtain ⟨sid, hsid, tier, htier, _, hzero, rfl⟩ := h
    obtain ⟨hlt, hpri⟩ := drop_of_readTier htier hzero
    refine ⟨rfl, rfl, rfl, fun t ht => Option.some_inj.1 ht ▸ hlt, fun build => ?_⟩
    rw [encodePayload, priorityByte_of_lt build hlt, Option.map_some,
      drop_of_memRead (readStreamId_eq_ok.1 hsid), hpri]
    simp only [List.append_assoc]
  case windowUpdate =>
    obtain ⟨sid, hsid, delta, hdelta, rfl⟩ := h
    refine ⟨rfl, rfl, rfl, nofun, fun build => ?_⟩
    rw [encodePayload, drop_of_memRead (readStreamId_eq_ok.1 hsid),
      drop_of_memRead (readDelta_eq_ok.1 hdelta), drop_eq_nil (by omega), List.append_nil]

/-- The checks behind the header let a frame through exactly with legal flags and the whole payload in
the buffer (R144, R145). -/
theorem flagsAndLength_eq_ok {F : Bytes} {mask flags : Byte} {n : Nat} {x : Except DecodeError Instr}
    {f : Instr} (h8 : 8 ≤ F.length)
    (h : (if ¬ withinMask mask flags then .error (.illegalBits .flags)
      else if F.length - 8 < n then .error (.malformed .lengthExceedsBuffer)
      else if n < F.length - 8 then .error (.malformed .truncated)
      else x) = .ok f) :
    withinMask mask flags = true ∧ F.length = 8 + n ∧ x = .ok f := by
  split at h
  · cases h
  · next hmask =>
    split at h
    · cases h
    · split at h
      · cases h
      · exact ⟨not_not.1 hmask, by omega, h⟩

/-- A data frame that decodes: its fields are the header's, its payload the rest (R148). -/
theorem decodeData_eq_ok {p : Params} {F : Bytes} {sid : StreamId} {flags : Byte} {n : Nat} {f : Instr}
    (h8 : 8 ≤ F.length) (h : decodeData p F sid flags n = .ok f) :
    withinMask p.dataFlagsMask flags = true ∧ F.length = 8 + n ∧ f = .data sid flags (F.drop 8) := by
  obtain ⟨hmask, hlen, hf⟩ := flagsAndLength_eq_ok (mask := flagsMask p false) h8 h
  exact ⟨hmask, hlen, (Except.ok.inj hf).symm⟩

/-- A control frame that decodes: the version and the type are known, and the body reads as the frame
(R142 to R149). -/
theorem decodeControl_eq_ok {p : Params} {F : Bytes} {ver : VersionTag} {typ : TypeCode} {flags : Byte}
    {n : Nat} {f : Instr} (h8 : 8 ≤ F.length) (h : decodeControl p F ver typ flags n = .ok f) :
    ∃ r k, revisionOf p ver = some r ∧ p.typeCode k = typ ∧
      withinMask p.controlFlagsMask flags = true ∧ F.length = 8 + n ∧ ReadsAs F ver r flags k f := by
  cases hr : revisionOf p ver with
  | none => rw [decodeControl_of_unknownVersion hr] at h; cases h
  | some r =>
    cases hk : controlTypeOf p typ with
    | none => rw [decodeControl_of_unknownType hr hk] at h; cases h
    | some k =>
      simp only [decodeControl, hr, hk] at h
      obtain ⟨hmask, hlen, h⟩ := flagsAndLength_eq_ok (mask := flagsMask p true) h8 h
      rw [lengthLegal_eq hlen] at h
      cases hok : lengthAllowed F n k with
      | false => rw [hok] at h; cases h
      | true =>
        rw [hok] at h
        exact ⟨r, k, rfl, typeCode_of_controlTypeOf hk, hmask, hlen, readsAs_of_decodeBody hlen hok h⟩

/-! ### The header of a frame that decodes -/

/-- The length field stands at offset 5, and the flags before it (R91, R92). -/
theorem drop_four_of_header {F : Bytes} (h8 : 8 ≤ F.length) :
    F.drop 4 = beBytes 1 (byteAt F 4).toNat ++ (beBytes 3 (headerLength F) ++ F.drop 8) := by
  rw [drop_of_memRead (memRead_one (F := F) (off := 4) (by omega)),
    drop_of_memRead (memRead_of_le (F := F) (off := 5) (n := 3) (by omega))]
  rfl

/-- The header of a data frame is what was read from it (R92). -/
theorem eq_dataHeader {F : Bytes} (h8 : 8 ≤ F.length) (hdata : byteAt F 0 &&& 0x80 = 0) :
    F = dataHeader (BitVec.ofNat 31 (beValue (F.take 4))) (byteAt F 4) (headerLength F) ++ F.drop 8 := by
  have hread : memRead F 0 4 = .ok (beValue (F.take 4)) := memRead_of_le (off := 0) (by omega)
  have hbit : (beValue (F.take 4)).testBit 31 = false := by
    have := (testBit_field_iff (off := 0) (n := 3) (F := F) (by omega)).not.2 (not_not.2 hdata)
    simpa using this
  have hsid : readStreamId F 0 = .ok (BitVec.ofNat 31 (beValue (F.take 4))) := by
    simp [readStreamId, hread, hbit, bind, Except.bind]
  have hword := drop_of_memRead (readStreamId_eq_ok.1 hsid)
  rw [List.drop_zero] at hword
  conv_lhs => rw [hword, drop_four_of_header h8]
  simp only [dataHeader, List.append_assoc]

/-- The header of a control frame is what was read from it (R91). -/
theorem eq_controlHeader {F : Bytes} (h8 : 8 ≤ F.length) (hctl : byteAt F 0 &&& 0x80 ≠ 0) :
    F = controlHeader (BitVec.ofNat 15 (beValue (F.take 2) - 0x8000))
      (BitVec.ofNat 16 (beValue ((F.drop 2).take 2))) (byteAt F 4) (headerLength F) ++ F.drop 8 := by
  have hread : memRead F 0 2 = .ok (beValue (F.take 2)) := memRead_of_le (off := 0) (by omega)
  have hbit : (beValue (F.take 2)).testBit 15 = true :=
    (testBit_field_iff (off := 0) (n := 1) (by omega)).2 hctl
  have hge := Nat.ge_two_pow_of_testBit hbit
  have hlt := memRead_lt hread
  have hver : 0x8000 + (BitVec.ofNat 15 (beValue (F.take 2) - 0x8000)).toNat = beValue (F.take 2) := by
    rw [BitVec.toNat_ofNat]
    omega
  have htyp := memRead_of_le (F := F) (off := 2) (n := 2) (by omega)
  have htyp' : (BitVec.ofNat 16 (beValue ((F.drop 2).take 2))).toNat = beValue ((F.drop 2).take 2) :=
    Nat.mod_eq_of_lt (memRead_lt htyp)
  have hword := drop_of_memRead hread
  rw [List.drop_zero] at hword
  conv_lhs => rw [hword, drop_of_memRead htyp, drop_four_of_header h8]
  simp only [controlHeader, hver, htyp', List.append_assoc]

theorem headerLength_le (F : Bytes) : headerLength F ≤ maxPayload := by
  have hlt := beValue_lt ((F.drop 5).take 3)
  have hpow : 256 ^ ((F.drop 5).take 3).length ≤ 256 ^ 3 :=
    Nat.pow_le_pow_right (by omega) (List.length_take_le _ _)
  exact Nat.le_of_lt_succ (hlt.trans_le hpow)

theorem eight_le_of_decode {p : Params} {F : Bytes} {f : Instr} (h : decode p F = .ok f) :
    8 ≤ F.length := by
  by_contra hshort
  rw [decode, if_pos (by omega)] at h
  cases h

/-- A control frame that was read as `f` encodes to the bytes it was read from (R173, R177). -/
theorem encode_of_readsAs {p : Params} (build : Build) {F : Bytes} {ver : VersionTag} {r : Revision}
    {flags : Byte} {k : ControlType} {f : Instr} {n : Nat} (hread : ReadsAs F ver r flags k f)
    (hr : revisionOf p ver = some r) (hmask : withinMask p.controlFlagsMask flags = true)
    (hn : n ≤ maxPayload) (hlen : F.length = 8 + n)
    (hF : F = controlHeader ver (p.typeCode k) flags n ++ F.drop 8) :
    f.wf p = true ∧ f.tierOk p = true ∧ encode p build f = .bytes F := by
  have hplen : f.plen = n := by
    rw [← encodePayload_length (hread.payload build), List.length_drop, hlen, Nat.add_sub_cancel_left]
  have hflags : flagsLegal p f = true := by
    rw [flagsLegal, hread.type, hread.flags]
    exact hmask
  refine ⟨Instr.wf_iff.2 ⟨hflags, hplen.trans_le hn, ?known⟩, ?tier, ?bytes⟩
  case known => simp [Instr.versionKnown, hread.ver, hr]
  case tier =>
    rw [Instr.tierOk, hread.ver]
    cases htier : f.tier? with
    | none => rfl
    | some t => simpa [hr] using hread.tier t htier
  case bytes =>
    rw [encode_control build hflags (hplen.trans_le hn) hread.ver hread.type, hr, Option.elim_some,
      hread.payload build, Option.elim_some, hread.flags, hplen, ← hF]

/-- Settles O2: the header is written back as it was read, and behind it the payload. -/
theorem encodeInvertsDecode : Obligations.EncodeInvertsDecode := by
  unfold Obligations.EncodeInvertsDecode
  intro p build F f h
  have h8 := eight_le_of_decode h
  have hn := headerLength_le F
  rw [decode_of_header p h8] at h
  by_cases hctl : byteAt F 0 &&& 0x80 = 0
  · rw [if_pos hctl] at h
    obtain ⟨hmask, hlen, rfl⟩ := decodeData_eq_ok h8 h
    have hflags : flagsLegal p (.data (BitVec.ofNat 31 (beValue (F.take 4))) (byteAt F 4) (F.drop 8)) =
        true := hmask
    have hpayload : (F.drop 8).length = headerLength F := by rw [List.length_drop, hlen]; omega
    have hplen : (F.drop 8).length ≤ maxPayload := hpayload.trans_le hn
    refine ⟨Instr.wf_iff.2 ⟨hflags, hplen, rfl⟩, rfl, ?_⟩
    rw [encode_data build hflags hplen, hpayload, ← eq_dataHeader h8 hctl]
  · rw [if_neg hctl] at h
    obtain ⟨r, k, hr, htype, hmask, hlen, hread⟩ := decodeControl_eq_ok h8 h
    refine encode_of_readsAs build hread hr hmask hn hlen ?_
    rw [htype]
    exact eq_controlHeader h8 hctl

end Sys2Proof
end

section
/-! PROOF. The codec's smaller laws: what decode never answers (R140), what encode refuses (R171), the
priority byte of a SYN_STREAM (R99, R147) and the header word of the opcode table (R113). -/

namespace Sys2Proof

open Machine

/-! ### The errors of decode -/

/-- The errors in the rows of R150: not the model's own, nor that of the receive loop. -/
def InTable (e : DecodeError) : Prop :=
  e ≠ .outOfBounds ∧ e ≠ .malformed .frameTooLarge

theorem inTable_verdictBody {mask : Byte} {F : Bytes} {rest : Option DecodeError}
    (hrest : ∀ e, rest = some e → InTable e) {e : DecodeError}
    (h : verdictBody mask F rest = some e) : InTable e := by
  unfold verdictBody at h
  split at h
  next => cases h; exact ⟨nofun, nofun⟩
  next =>
    split at h
    next => cases h; exact ⟨nofun, nofun⟩
    next =>
      split at h
      next => cases h; exact ⟨nofun, nofun⟩
      next => exact hrest e h

theorem inTable_decodeVerdict {p : Params} {F : Bytes} {e : DecodeError}
    (h : decodeVerdict p F = some e) : InTable e := by
  unfold decodeVerdict at h
  split at h
  next => cases h; exact ⟨nofun, nofun⟩
  next =>
    split at h
    next => exact inTable_verdictBody (rest := none) nofun h
    next =>
      dsimp only at h
      split at h
      next => cases h; exact ⟨nofun, nofun⟩
      next =>
        split at h
        next => cases h; exact ⟨nofun, nofun⟩
        next =>
          refine inTable_verdictBody (fun e he => ?_) h
          split at he
          next => cases he; exact ⟨nofun, nofun⟩
          next =>
            obtain ⟨sub, -, rfl⟩ := Option.map_eq_some_iff.1 he
            exact ⟨nofun, nofun⟩

/-- Settles O4: every error of decode is in the table of R150. -/
theorem decodeStaysInBounds : Obligations.DecodeStaysInBounds := by
  unfold Obligations.DecodeStaysInBounds
  intro p F
  have htable : ∀ e, decode p F = .error e → InTable e := fun e he =>
    inTable_decodeVerdict ((errorOf_decode p F).symm.trans (errorOf_eq_some.2 he))
  exact ⟨fun h => (htable _ h).1 rfl, fun h => (htable _ h).2 rfl⟩

/-! ### The refusals of encode -/

theorem flagsLegal_iff {p : Params} {f : Instr} : flagsLegal p f = true ↔
    f.flags &&& ~~~(if f.controlType?.isSome then p.controlFlagsMask else p.dataFlagsMask) = 0 :=
  decide_eq_true_iff

/-- Settles O8: the first two tests of encode. -/
theorem encodeRefusals : Obligations.EncodeRefusals := by
  unfold Obligations.EncodeRefusals
  intro p build f
  rw [← flagsLegal_iff, ne_eq, ← flagsLegal_iff]
  refine ⟨fun hflags => ?_, fun hflags hlen => ?_⟩
  · unfold encode
    rw [if_pos hflags]
  · unfold encode
    rw [if_neg (not_not.2 hflags), if_pos hlen]

/-! ### The priority byte of a SYN_STREAM -/

/-- A priority byte is read as its top bits, or refused for a bit below them (R147). -/
theorem readTier_of_byte {F : Bytes} {r : Revision} {off : Nat} {b : Byte}
    (h : memRead F off 1 = .ok b.toNat) : readTier F r off =
      if b.toNat % 2 ^ priShift r = 0 then .ok (Fin.ofNat 8 (b.toNat / 2 ^ priShift r))
      else .error (.illegalBits .reserved) := by
  simp [readTier, h, bind, Except.bind, withinMask_priMask_iff, tierOfByte_eq]

/-- A byte between `A` and `C` is read at its offset. -/
theorem memRead_byte {A C F : Bytes} {b : Byte} {off : Nat} (hF : F = A ++ (b :: C))
    (ho : off = A.length) : memRead F off 1 = .ok b.toNat :=
  memRead_beBytes (C := C) (by rw [beBytes_one]; exact hF) ho b.isLt

/-- Settles O9: the words before the priority byte and the byte behind it are legal, so that byte
decides. -/
theorem priorityByteDecodes : Obligations.PriorityByteDecodes := by
  unfold Obligations.PriorityByteDecodes
  intro p r b sid assoc hb hp hlen
  refine ⟨?_, topBits_lt r b⟩
  have hpay :
      (beBytes 4 sid.toNat ++ beBytes 4 assoc.toNat ++ [b, 0] ++ hb).length = 10 + hb.length := by
    simp
    omega
  generalize hF : controlHeader (versionTag p r) p.typeSynStream 0 (10 + hb.length) ++
    beBytes 4 sid.toNat ++ beBytes 4 assoc.toNat ++ [b, 0] ++ hb = F
  replace hF := hF.symm
  have hframe : F = controlHeader (versionTag p r) (p.typeCode .synStream) 0
      (beBytes 4 sid.toNat ++ beBytes 4 assoc.toNat ++ [b, 0] ++ hb).length ++
      (beBytes 4 sid.toNat ++ beBytes 4 assoc.toNat ++ [b, 0] ++ hb) := by
    rw [hpay, hF]
    simp only [List.append_assoc]
    rfl
  have hsid : memRead F 8 4 = .ok sid.toNat :=
    memRead_beBytes (A := controlHeader (versionTag p r) p.typeSynStream 0 (10 + hb.length))
      (by simp only [hF, List.append_assoc]; rfl) (by simp) (toNat_lt_word sid)
  have hassoc : memRead F 12 4 = .ok assoc.toNat :=
    memRead_beBytes (A := controlHeader (versionTag p r) p.typeSynStream 0 (10 + hb.length) ++
      beBytes 4 sid.toNat) (by simp only [hF, List.append_assoc]; rfl) (by simp) (toNat_lt_word assoc)
  have hbyte : memRead F 16 1 = .ok b.toNat :=
    memRead_byte (A := controlHeader (versionTag p r) p.typeSynStream 0 (10 + hb.length) ++
      beBytes 4 sid.toNat ++ beBytes 4 assoc.toNat) (C := 0 :: hb)
      (by simp only [hF, List.append_assoc]; rfl) (by simp)
  have hzero : memRead F 17 1 = .ok 0 :=
    memRead_byte (A := controlHeader (versionTag p r) p.typeSynStream 0 (10 + hb.length) ++
      beBytes 4 sid.toNat ++ beBytes 4 assoc.toNat ++ [b]) (C := hb) (b := 0)
      (by simp only [hF, List.append_assoc]; rfl) (by simp)
  have hdrop : F.drop 18 = hb := by
    rw [hF]
    exact List.drop_left' (by simp)
  rw [decode_controlFrame hp hframe (hpay.trans_le hlen) (withinMask_zero _)
    (by rw [hpay]; simp [lengthLegal])]
  simp only [decodeBody, readStreamId_eq_ok.2 hsid, readStreamId_eq_ok.2 hassoc, readTier_of_byte hbyte,
    readZero_eq_ok.2 hzero, hdrop, bind, Except.bind]
  by_cases hmod : b.toNat % 2 ^ priShift r = 0
  · rw [if_pos hmod, if_pos hmod]
  · rw [if_neg hmod, if_neg hmod]

/-! ### The header word of the opcode table -/

/-- The low bits of a word do not show under a mask above them. -/
theorem and_shifted_mask {a lo : Nat} (m : Nat) {i : Nat} (h : lo < 2 ^ i) :
    (a * 2 ^ i + lo) &&& (m * 2 ^ i) = (a &&& m) * 2 ^ i := by
  apply Nat.eq_of_testBit_eq
  intro j
  rw [Nat.testBit_and, Nat.mul_comm a, Nat.testBit_two_pow_mul_add a h, Nat.testBit_mul_two_pow,
    Nat.testBit_mul_two_pow, Nat.testBit_and]
  by_cases hj : j < i
  · simp [hj, Nat.not_le.2 hj]
  · simp [hj, Nat.not_lt.1 hj]

/-- The control bit and the type code are what the mask of a control row leaves of the upper word. -/
theorem and_controlMask (ver : VersionTag) (typ : TypeCode) :
    ((0x8000 + ver.toNat) * 2 ^ 16 + typ.toNat) &&& 0x8000FFFF = 0x80000000 + typ.toNat := by
  have htyp := typ.isLt
  have hbit : (((0x8000 + ver.toNat) * 2 ^ 16 + typ.toNat) &&& 2 ^ 31) = 2 ^ 31 := by
    have hand := and_shifted_mask (a := 0x8000 + ver.toNat) (lo := typ.toNat) (2 ^ 15) htyp
    rw [Nat.and_two_pow, testBit_controlWord] at hand
    exact hand
  have hlow : (((0x8000 + ver.toNat) * 2 ^ 16 + typ.toNat) &&& (2 ^ 16 - 1)) = typ.toNat := by
    rw [Nat.and_two_pow_sub_one_eq_mod]
    omega
  have hor := Nat.two_pow_add_eq_or_of_lt (i := 31) (b := typ.toNat) (by omega) 1
  rw [show (0x8000FFFF : Nat) = 2 ^ 31 ||| (2 ^ 16 - 1) from rfl, Nat.and_or_distrib_left, hbit, hlow]
  exact hor.symm

theorem beValue_controlHeader (ver : VersionTag) (typ : TypeCode) (flags : Byte) {n : Nat}
    (hn : n ≤ maxPayload) : beValue (controlHeader ver typ flags n) =
      ((0x8000 + ver.toNat) * 2 ^ 16 + typ.toNat) * 2 ^ 32 + (flags.toNat * 2 ^ 24 + n) := by
  have hver := ver.isLt
  simp only [controlHeader, beValue_append, beBytes_length]
  rw [beValue_beBytes_lt (v := 0x8000 + ver.toNat) (by omega), beValue_beBytes_lt typ.isLt,
    beValue_beBytes_lt flags.isLt, beValue_beBytes_lt (Nat.lt_succ_of_le hn)]
  omega

theorem beValue_dataHeader_lt (sid : StreamId) (flags : Byte) (n : Nat) :
    beValue (dataHeader sid flags n) < 2 ^ 63 := by
  have hsid := sid.isLt
  have hlow := beValue_lt (beBytes 1 flags.toNat ++ beBytes 3 n)
  simp only [List.length_append, beBytes_length] at hlow
  rw [dataHeader, List.append_assoc, beValue_append, beValue_beBytes_lt (toNat_lt_word sid)]
  simp only [List.length_append, beBytes_length]
  omega

/-- Settles O10: a frame that decodes begins with the header `encode` writes (O2). -/
theorem opcodeMap : Obligations.OpcodeMap := by
  unfold Obligations.OpcodeMap
  intro p F f h
  obtain ⟨-, -, henc⟩ := encodeInvertsDecode p .release F f h
  obtain ⟨-, hlen⟩ := legal_of_encode henc
  obtain ⟨sid, flags, payload, rfl⟩ | ⟨ver, k, hver, hk⟩ := f.eq_data_or_control
  · have hlt := beValue_dataHeader_lt sid flags payload.length
    rw [data_of_encode henc, List.take_left' (dataHeader_length ..)]
    have hbit := Nat.and_two_pow (beValue (dataHeader sid flags payload.length)) 63
    rw [Nat.testBit_lt_two_pow hlt] at hbit
    exact hbit
  · obtain ⟨r, payload, -, -, hF⟩ := control_of_encode hver hk henc
    have hflags := f.flags.isLt
    have hlow : f.flags.toNat * 2 ^ 24 + f.plen < 2 ^ 32 := by
      simp only [maxPayload] at hlen
      omega
    have hword := and_shifted_mask (a := (0x8000 + ver.toNat) * 2 ^ 16 + (p.typeCode k).toNat)
      0x8000FFFF hlow
    rw [and_controlMask] at hword
    rw [hk, hF, List.take_left' (controlHeader_length ..)]
    simp only [beValue_controlHeader ver _ _ hlen]
    refine hword.trans ?_
    omega

end Sys2Proof
end

section
/-! PROOF. Laws that follow from one case of a definition: the frame a turn takes (R261), the checks of
`DISPATCH` (R262), the commands that only set fields (R43, R260, R313, R314), a session that is over
(R347), and the credit of a purged stream (R226). -/

namespace Sys2Proof

open Machine

/-! ### The receive loop and `DISPATCH` -/

/-- Settles O12. -/
theorem stepRunsDecodedFrame : Obligations.StepRunsDecodedFrame := by
  unfold Obligations.StepRunsDecodedFrame
  intro s f hphase hopen hheader hcapacity hpayload hdecode
  rw [step_of_receiving hphase]
  exact receiveTurn_of_frame hopen hheader hcapacity hpayload hdecode

theorem versionChecked_of_ne {ver : VersionTag} {s : State} (h : ver ≠ wireVersion s.cfg)
    (k : Outcome) :
    versionChecked ver s k = .next (afterFatal (.unknownVersion .versionMismatch) s) := by
  rw [versionChecked, if_pos h, fatal_eq]

theorem versionChecked_of_eq {ver : VersionTag} {s : State} (h : ver = wireVersion s.cfg)
    (k : Outcome) : versionChecked ver s k = k := by
  rw [versionChecked, if_neg (not_not.2 h)]

theorem streamNamed_zero (s : State) (k : Outcome) :
    streamNamed 0 s k = .next (afterFatal (.sessionProtocolError .streamIdZero) s) := by
  rw [streamNamed, if_pos rfl, fatal_eq]

/-- The version test comes first, on every control frame (R262). -/
theorem exec_of_otherVersion {f : Instr} {ver : VersionTag} {s : State} (hver : f.ver? = some ver)
    (h : ver ≠ wireVersion s.cfg) :
    exec f s = .next (afterFatal (.unknownVersion .versionMismatch) s) := by
  cases f with
  | data => cases hver
  | synStream | synReply | rstStream | settings | ping | goaway | headers | windowUpdate =>
    cases hver
    exact versionChecked_of_ne h _

/-- Settles O16. -/
theorem dispatchChecks : Obligations.DispatchChecks := by
  unfold Obligations.DispatchChecks
  intro s f
  refine ⟨fun ver hver hne => exec_of_otherVersion hver hne, fun hver hzero hkind => ?_⟩
  cases f with
  | data sid flags payload =>
    cases hzero
    exact streamNamed_zero s (receiveData 0 flags payload s)
  | synStream | synReply | rstStream | headers =>
    cases hzero
    exact (versionChecked_of_eq (hver _ rfl) _).trans (streamNamed_zero s _)
  | windowUpdate => exact absurd rfl hkind
  | settings | ping | goaway => cases hzero

/-! ### Commands -/

theorem unlessEnded_of_ended {s : State} (h : ended s = true) (k : Outcome) :
    unlessEnded s k = .next (ret (.err .sessionClosed) s) := if_pos h

theorem ended_iff {s : State} : ended s = true ↔ s.mode = .closed ∨ s.mode = .fault :=
  decide_eq_true_iff

/-- The common first line of every command but `Reset` (R335). -/
theorem runCommand_of_ended {s : State} {c : Command} (h : ended s = true)
    (hreset : ∀ cfg, c ≠ .reset cfg) :
    runCommand c s = .next (ret (.err .sessionClosed) s) := by
  cases c with
  | reset cfg => exact absurd rfl (hreset cfg)
  | onBytes | transportBlocked | transportWritable | openStream | sendData | resetStream | close =>
    exact unlessEnded_of_ended h _

/-- Settles O38. -/
theorem sessionOverRefuses : Obligations.SessionOverRefuses := by
  unfold Obligations.SessionOverRefuses
  intro s c rest hidle hinbox hover hreset
  rw [step_of_command hidle hinbox,
    runCommand_of_ended (s := { s with inbox := rest }) (ended_iff.2 hover) hreset, ret, ← hidle]

/-- Settles O39: every field is the one `State.ofCfg` and `ret` give. -/
theorem resetInstalls : Obligations.ResetInstalls := by
  unfold Obligations.ResetInstalls
  intro s c rest hidle hinbox
  refine ⟨_, step_of_command hidle hinbox, rfl, rfl, ?_, rfl, rfl, rfl, rfl, rfl, rfl, rfl, rfl, rfl,
    rfl, rfl, rfl, fun i => emptyQueues_getElem i, rfl, rfl, rfl, rfl, rfl, rfl, rfl, rfl, rfl⟩
  cases hrole : c.role <;> simp [State.ofCfg, hrole, firstStreamId]

/-- Settles O40. -/
theorem onBytesBuffers : Obligations.OnBytesBuffers := by
  unfold Obligations.OnBytesBuffers
  intro s chunk rest hidle hinbox hclosed hfault
  rw [step_of_command hidle hinbox, runCommand, cmdOnBytes,
    unlessEnded_of_live (s := { s with inbox := rest }) (ended_eq_false hclosed hfault)]

/-- Settles O45. -/
theorem transportSignals : Obligations.TransportSignals := by
  unfold Obligations.TransportSignals
  intro s c ready rest hc hidle hinbox hclosed hfault
  have hlive : ended { s with inbox := rest } = false := ended_eq_false hclosed hfault
  rw [step_of_command hidle hinbox]
  obtain ⟨rfl, rfl⟩ | ⟨rfl, rfl⟩ := hc
  · exact unlessEnded_of_live hlive _
  · exact unlessEnded_of_live hlive _

/-! ### The state after reset (R43) -/

theorem not_mem_emptyQueues (t : Fin 8) (e : QueueEntry) : e ∉ emptyQueues[t] := by
  rw [emptyQueues_getElem]
  exact List.not_mem_nil

section

variable (c : Cfg)

theorem tableInv_ofCfg : TableInv (State.ofCfg c) where
  canonical := tableWf_nil
  nonzero := nofun
  localBelow := nofun
  peerBelow := nofun
  live := nofun
  goodSeen := le_rfl
  nextParity := by
    change firstStreamId c.role % 2 = localParity c.role
    cases c.role <;> rfl
  nextPositive := by
    change 0 < firstStreamId c.role
    cases c.role <;> decide
  nextBound := by
    change firstStreamId c.role ≤ 0x80000001
    cases c.role <;> decide

theorem windowInv_ofCfg : WindowInv (State.ofCfg c) where
  sendAbove := Int.natCast_nonneg _
  sendBelow := by
    have := c.sessionInitialWindow.isLt
    change (c.sessionInitialWindow.val : Int) ≤ 2 ^ 31 - 1
    omega
  recvFull := rfl
  streams := nofun

variable {c} (hc : c.wf = true)
include hc

theorem configInv_ofCfg : ConfigInv (State.ofCfg c) where
  cfg := hc
  inbox := nofun

theorem queueInv_ofCfg : QueueInv (State.ofCfg c) where
  config := configInv_ofCfg hc
  urgent := nofun
  tiers := by simp [State.ofCfg]

theorem pendingInv_ofCfg : PendingInv (State.ofCfg c) where
  config := configInv_ofCfg hc
  sendable := nofun
  finLast := .nil
  closedNone := nofun
  receivingLive := nofun
  blocked := fun _ before w after h => by cases before <;> cases h

theorem revisionInv_ofCfg : RevisionInv (State.ofCfg c) where
  config := configInv_ofCfg hc
  records := nofun
  queues := fun t _ => emptyQueues_getElem t

end

theorem sessionInv_ofCfg (c : Cfg) : SessionInv (State.ofCfg c) where
  activeNone := fun _ => rfl
  goingReceived := nofun
  sentClosed := nofun
  closedEmpty := nofun
  receivingLive := nofun
  receivingClosed := nofun
  idleReturned := fun _ => ⟨rfl, rfl⟩
  idleShort := fun _ => .inl (by simp [State.ofCfg])
  idleSent := fun _ _ => ⟨rfl, rfl⟩

theorem tierInv_ofCfg (c : Cfg) : TierInv (State.ofCfg c) where
  oneQueue := fun t e he => absurd he (not_mem_emptyQueues t e)
  queuedUsed := fun t e he => absurd he (not_mem_emptyQueues t e)
  tableUsed := nofun

/-- Settles O53. -/
theorem invariantsAtReset : Obligations.InvariantsAtReset := by
  unfold Obligations.InvariantsAtReset
  exact fun c hc => ⟨tableInv_ofCfg c, windowInv_ofCfg c, queueInv_ofCfg hc, sessionInv_ofCfg c,
    pendingInv_ofCfg hc, tierInv_ofCfg c, revisionInv_ofCfg hc⟩

/-! ### The credit of a queued DATA frame -/

/-- A frame queued behind the others adds its payload to what a purge refunds (R226). -/
theorem queuedDataBytes_set (sid : StreamId) (f : Instr) (qs : TierQueues) (t : Fin 8) :
    queuedDataBytes sid (qs.set t (qs[t] ++ [(sid, f)])) = queuedDataBytes sid qs + dataSize f := by
  have hlen : t.val < qs.toList.length := by simp
  have hsplit : qs.toList.flatten =
      (qs.toList.take t).flatten ++ (qs[t] ++ (qs.toList.drop (t + 1)).flatten) := by
    conv_lhs => rw [← List.take_append_drop t qs.toList, List.drop_eq_getElem_cons hlen]
    simp
  have hset : (qs.set t (qs[t] ++ [(sid, f)])).toList.flatten = (qs.toList.take t).flatten ++
      ((qs[t] ++ [(sid, f)]) ++ (qs.toList.drop (t + 1)).flatten) := by
    rw [Vector.toList_set, List.set_eq_take_append_cons_drop, if_pos hlen]
    simp
  simp only [queuedDataBytes, hsplit, hset, List.filter_append, List.map_append, List.sum_append]
  simp
  omega

/-- Settles O30: what `consume` takes, the purge gives back. -/
theorem purgeReturnsCredit : Obligations.PurgeReturnsCredit := by
  unfold Obligations.PurgeReturnsCredit
  intro s sid r flags payload hget
  rw [consume_of_get hget, enqueue_of_get (tableGet_put_self _ _ _)]
  simp only [purge, setQueue, putStream, queuedDataBytes_set, dataSize]
  congr 1
  omega

end Sys2Proof
end

section
/-! PROOF. The gate on one write (R305): the write is cut into pieces by the credit alone (`cutWrite`),
and what the gate does to the state is read off the pieces (`drainWrite_eq_cut`). -/

namespace Sys2Proof

open Machine

/-! ### Cutting a write -/

/-- The pieces a write of which `rem` is left is cut into with credit `a` and pieces of at most `cap`
bytes, and what stays of it: `drainWrite` without the state (R305). -/
def cutWrite (cap : Nat) : Nat → Int → Bytes → List Bytes × Option Bytes
  | 0, _, rem => ([], some rem)
  | turns + 1, a, rem =>
    let n := min rem.length (min a.toNat cap)
    if (rem = [] ∧ 0 ≤ a) ∨ 0 < n then
      if n = rem.length then ([rem], none)
      else
        let (sent, left) := cutWrite cap turns (a - n) (rem.drop n)
        (rem.take n :: sent, left)
    else ([], some rem)

/-- A write that is held back cannot send: no credit is left, for an empty write a negative one (R239,
R305). -/
def NoCredit (cap : Nat) (rem : Bytes) (a : Int) : Prop :=
  (rem = [] → a < 0) ∧ (rem ≠ [] → cap ≠ 0 → a ≤ 0)

theorem noCredit_iff {cap : Nat} {rem : Bytes} {a : Int} : NoCredit cap rem a ↔
    ¬ ((rem = [] ∧ 0 ≤ a) ∨ 0 < min rem.length (min a.toNat cap)) := by
  cases rem with
  | nil => simp [NoCredit]
  | cons b rem =>
    simp only [NoCredit, reduceCtorEq, false_implies, ne_eq, not_false_eq_true, true_implies,
      true_and, false_and, false_or, List.length_cons]
    omega

theorem NoCredit.mono {cap : Nat} {rem : Bytes} {a b : Int} (h : NoCredit cap rem a) (hb : b ≤ a) :
    NoCredit cap rem b :=
  ⟨fun hrem => hb.trans_lt (h.1 hrem), fun hrem hcap => hb.trans (h.2 hrem hcap)⟩

theorem cutWrite_of_noCredit {cap : Nat} {rem : Bytes} {a : Int} (h : NoCredit cap rem a)
    (turns : Nat) : cutWrite cap turns a rem = ([], some rem) := by
  cases turns with
  | zero => rfl
  | succ turns => exact if_neg (noCredit_iff.1 h)

theorem cutWrite_last {cap turns : Nat} {rem : Bytes} {a : Int} (h : ¬ NoCredit cap rem a)
    (hlast : min rem.length (min a.toNat cap) = rem.length) :
    cutWrite cap (turns + 1) a rem = ([rem], none) := by
  simp only [cutWrite, if_pos (not_not.1 fun hsend => h (noCredit_iff.2 hsend)), if_pos hlast]

theorem cutWrite_piece {cap turns n : Nat} {rem : Bytes} {a : Int} (h : ¬ NoCredit cap rem a)
    (hn : min rem.length (min a.toNat cap) = n) (hlast : n ≠ rem.length) :
    cutWrite cap (turns + 1) a rem = (rem.take n :: (cutWrite cap turns (a - n) (rem.drop n)).1,
      (cutWrite cap turns (a - n) (rem.drop n)).2) := by
  subst hn
  simp only [cutWrite, if_pos (not_not.1 fun hsend => h (noCredit_iff.2 hsend)), if_neg hlast]

/-- What a turn that sends takes: within the credit, and at least a byte unless it is the last. -/
theorem piece_bounds {cap n : Nat} {rem : Bytes} {a : Int} (h : ¬ NoCredit cap rem a)
    (hn : min rem.length (min a.toNat cap) = n) :
    n ≤ rem.length ∧ n ≤ cap ∧ (n : Int) ≤ a ∧ (n ≠ rem.length → 0 < n) := by
  have hsend := not_not.1 fun hsend => h (noCredit_iff.2 hsend)
  obtain ⟨rfl, ha⟩ | hpos := hsend
  · simp only [List.length_nil, Nat.zero_min] at hn
    subst hn
    simpa using ha
  · omega

/-- What a cut is: the bytes in order, in pieces that fit, within the credit; and with a turn for each
byte and one more, bytes stay only where no credit is left. -/
structure CutSound (cap turns : Nat) (a : Int) (rem : Bytes) (cut : List Bytes × Option Bytes) :
    Prop where
  bytes : cut.1.flatten ++ cut.2.getD [] = rem
  fits : ∀ b ∈ cut.1, b.length ≤ cap
  finished : cut.2 = none → cut.1 ≠ []
  paid : cut.1 ≠ [] → (cut.1.flatten.length : Int) ≤ a
  stuck : rem.length < turns → ∀ left, cut.2 = some left →
    NoCredit cap left (a - cut.1.flatten.length)

theorem cutWrite_sound (cap turns : Nat) (a : Int) (rem : Bytes) :
    CutSound cap turns a rem (cutWrite cap turns a rem) := by
  induction turns generalizing a rem with
  | zero => exact ⟨rfl, nofun, nofun, fun h => absurd rfl h, fun h => absurd h (Nat.not_lt_zero _)⟩
  | succ turns ih =>
    by_cases hstop : NoCredit cap rem a
    case pos =>
      rw [cutWrite_of_noCredit hstop]
      refine ⟨rfl, nofun, nofun, fun h => absurd rfl h, fun _ left hleft => ?_⟩
      cases hleft
      simpa using hstop
    case neg =>
      obtain ⟨hle, hcap, hcredit, hpos⟩ := piece_bounds hstop rfl
      by_cases hlast : min rem.length (min a.toNat cap) = rem.length
      case pos =>
        rw [hlast] at hcap hcredit
        rw [cutWrite_last hstop hlast]
        exact ⟨by simp, by simpa using hcap, fun _ => nofun, fun _ => by simpa using hcredit, nofun⟩
      case neg =>
        rw [cutWrite_piece hstop rfl hlast]
        generalize min rem.length (min a.toNat cap) = n at *
        obtain ⟨hbytes, hfits, -, hpaid, hstuck⟩ := ih (a - n) (rem.drop n)
        generalize cutWrite cap turns (a - n) (rem.drop n) = cut at *
        have hcost : ((rem.take n :: cut.1).flatten.length : Int) = n + cut.1.flatten.length := by
          simp only [List.flatten_cons, List.length_append, List.length_take_of_le hle]
          omega
        refine ⟨?_, List.forall_mem_cons.2 ⟨?_, hfits⟩, fun _ => nofun, fun _ => ?_,
          fun hturns left hleft => ?_⟩
        · simp only [List.flatten_cons, List.append_assoc, hbytes, List.take_append_drop]
        · rwa [List.length_take_of_le hle]
        · rw [hcost]
          by_cases hnil : cut.1 = []
          · simpa [hnil] using hcredit
          · have := hpaid hnil
            omega
        · have := hpos hlast
          rw [hcost, ← Int.sub_sub]
          exact hstuck (by rw [List.length_drop]; omega) left hleft

/-! ### The frames of the pieces -/

theorem pieceFrames_nil (c : Cfg) (sid : StreamId) (fin : Bool) : pieceFrames c sid fin [] = [] := rfl

/-- A piece with another behind it goes out without FIN, as does one of a write that is not finished. -/
theorem pieceFrames_cons {c : Cfg} {sid : StreamId} {fin : Bool} {piece : Bytes} {rest : List Bytes}
    (h : fin = true → rest ≠ []) :
    pieceFrames c sid fin (piece :: rest) = (sid, .data sid 0 piece) :: pieceFrames c sid fin rest := by
  have hflag : ¬ (fin = true ∧ 0 + 1 = (piece :: rest).length) := by
    rintro ⟨hfin, hone⟩
    exact h hfin (List.length_eq_zero_iff.1 (by simpa using hone))
  simp only [pieceFrames, List.zipIdx_cons, List.map_cons, if_neg hflag, List.zipIdx_succ, List.map_map]
  congr 1
  refine List.map_congr_left fun x _ => ?_
  simp

theorem pieceFrames_last (c : Cfg) (sid : StreamId) (fin : Bool) (piece : Bytes) :
    pieceFrames c sid fin [piece] =
      [(sid, .data sid (if fin then c.params.flagFin else 0) piece)] := by
  simp [pieceFrames]

/-! ### What the gate leaves -/

/-- The pieces of a write of the stream of record `r`, paid for and queued (R305, R237, R221). -/
def queuePieces (sid : StreamId) (r : Stream) (fin : Bool) (sent : List Bytes) (s : State) : State :=
  { s with
    streams := if sent = [] then s.streams
      else tablePut s.streams sid { r with sendWindow := r.sendWindow - sent.flatten.length }
    sessionSendWindow := s.sessionSendWindow - sent.flatten.length
    tierq := s.tierq.set r.tier (s.tierq[r.tier] ++ pieceFrames s.cfg sid fin sent) }

theorem queuePieces_nil (sid : StreamId) (r : Stream) (fin : Bool) (s : State) :
    queuePieces sid r fin [] s = s := by
  simp [queuePieces, pieceFrames_nil]

theorem tableGet_queuePieces {sid : StreamId} {r : Stream} {fin : Bool} {sent : List Bytes} {s : State}
    (hget : tableGet s.streams sid = some r) : tableGet (queuePieces sid r fin sent s).streams sid =
      some { r with sendWindow := r.sendWindow - sent.flatten.length } := by
  by_cases hsent : sent = []
  · subst hsent
    simp [queuePieces, hget]
  · simp [queuePieces, hsent]

theorem tableGet_queuePieces_ne {sid k : StreamId} {r : Stream} {fin : Bool} {sent : List Bytes}
    {s : State} (h : sid ≠ k) :
    tableGet (queuePieces sid r fin sent s).streams k = tableGet s.streams k := by
  by_cases hsent : sent = []
  · simp [queuePieces, hsent]
  · simp [queuePieces, hsent, tableGet_put_ne _ _ h]

/-- The pieces may be queued one after the other. -/
theorem queuePieces_cons {sid : StreamId} {r : Stream} {fin : Bool} {piece : Bytes}
    {rest : List Bytes} (h : fin = true → rest ≠ []) (s : State) :
    queuePieces sid { r with sendWindow := r.sendWindow - piece.length } fin rest
      (queuePieces sid r false [piece] s) = queuePieces sid r fin (piece :: rest) s := by
  have hsum (x : Int) : x - piece.length - (rest.flatten.length : Int) =
      x - ((piece.length + rest.flatten.length : Nat) : Int) := by omega
  have hqueue : ((s.tierq.set r.tier (s.tierq[r.tier] ++ [(sid, .data sid 0 piece)])).set r.tier
      ((s.tierq.set r.tier (s.tierq[r.tier] ++ [(sid, .data sid 0 piece)]))[r.tier] ++
        pieceFrames s.cfg sid fin rest)) =
      s.tierq.set r.tier (s.tierq[r.tier] ++ pieceFrames s.cfg sid fin (piece :: rest)) := by
    rw [pieceFrames_cons h]
    simp
  by_cases hrest : rest = []
  · subst hrest
    have hfin : fin = false := by simpa using h
    subst hfin
    rw [queuePieces_nil]
  · simp only [queuePieces, hrest, if_false, reduceCtorEq, pieceFrames_last, List.flatten_cons,
      List.flatten_nil, List.append_nil, List.length_append, hsum, hqueue, tablePut_put,
      Bool.false_eq_true]

theorem nextState_sendFrame {st st' : StreamState} (h : nextState st .sendFrame = some st') :
    st' = st := by
  cases st <;> cases h <;> rfl

/-- One turn of the gate queues one piece, whatever the state of the stream. -/
theorem enqueue_piece_eq {sid : StreamId} {r : Stream} {s : State}
    (hget : tableGet s.streams sid = some r) (fin : Bool) (piece : Bytes) :
    enqueue sid (.data sid (if fin then s.cfg.params.flagFin else 0) piece)
      (orElseSame (consume sid piece.length s) (transition sid .sendFrame (consume sid piece.length s))) =
      queuePieces sid r fin [piece] s := by
  have hpaid : orElseSame (consume sid piece.length s)
      (transition sid .sendFrame (consume sid piece.length s)) = consume sid piece.length s := by
    rw [consume_of_get hget]
    obtain h | ⟨q, st, hq, hst, h⟩ := orElseSame_transition sid .sendFrame
      { putStream sid { r with sendWindow := r.sendWindow - piece.length } s with
        sessionSendWindow := s.sessionSendWindow - piece.length }
    · exact h
    · rw [h]
      obtain rfl := Option.some_inj.1 ((tableGet_put_self _ _ _).symm.trans hq)
      obtain rfl := nextState_sendFrame hst
      simp only [putStream, tablePut_put]
  rw [hpaid, consume_of_get hget, enqueue_of_get (tableGet_put_self _ _ _)]
  simp [queuePieces, setQueue, putStream, pieceFrames_last]

/-- The own direction of a stream finished by the last piece of a write with FIN (R305, R197). -/
def finishLocal (sid : StreamId) (s : State) : State :=
  removeIfClosed sid (orElseSame s (transition sid .sendFin s))

/-- What the gate leaves of the state, given the cut of the write. -/
def afterGate (sid : StreamId) (r : Stream) (fin : Bool) (cut : List Bytes × Option Bytes) (s : State) :
    State :=
  if cut.2 = none ∧ fin = true then finishLocal sid (queuePieces sid r true cut.1 s)
  else queuePieces sid r false cut.1 s

theorem afterGate_cons {sid : StreamId} {r : Stream} {fin : Bool} {piece : Bytes}
    {cut : List Bytes × Option Bytes} (h : cut.2 = none → cut.1 ≠ []) (s : State) :
    afterGate sid { r with sendWindow := r.sendWindow - piece.length } fin cut
      (queuePieces sid r false [piece] s) = afterGate sid r fin (piece :: cut.1, cut.2) s := by
  unfold afterGate
  split
  next hfin => rw [queuePieces_cons fun _ => h hfin.1]
  next => rw [queuePieces_cons fun h => absurd h Bool.false_ne_true]

section

variable {sid : StreamId} {rem : Bytes} {s : State} {r : Stream} {a : Int}
  (hget : tableGet s.streams sid = some r) (ha : min r.sendWindow s.sessionSendWindow = a)
include hget ha

theorem drainWrite_of_noCredit (h : NoCredit s.cfg.maxDataPayload.val rem a) (turns : Nat) (fin : Bool) :
    drainWrite turns sid rem fin s = (s, some rem) := by
  subst ha
  cases turns with
  | zero => rfl
  | succ turns =>
    simp only [drainWrite, avail_of_get hget, pieceSize]
    exact if_neg (noCredit_iff.1 h)

variable (h : ¬ NoCredit s.cfg.maxDataPayload.val rem a) (turns : Nat) (fin : Bool)
include h

theorem drainWrite_last
    (hlast : min rem.length (min a.toNat s.cfg.maxDataPayload.val) = rem.length) :
    drainWrite (turns + 1) sid rem fin s = (afterGate sid r fin ([rem], none) s, none) := by
  subst ha
  have hsend := not_not.1 fun hsend => h (noCredit_iff.2 hsend)
  have hpiece := enqueue_piece_eq hget fin rem
  rw [hlast] at hsend
  simp only [drainWrite, avail_of_get hget, pieceSize, hlast, if_pos hsend, List.take_length,
    decide_true, Bool.true_and, if_true, hpiece]
  cases fin <;> rfl

theorem drainWrite_piece {n : Nat} (hn : min rem.length (min a.toNat s.cfg.maxDataPayload.val) = n)
    (hlast : n ≠ rem.length) : drainWrite (turns + 1) sid rem fin s =
      drainWrite turns sid (rem.drop n) fin (queuePieces sid r false [rem.take n] s) := by
  subst ha hn
  have hsend := not_not.1 fun hsend => h (noCredit_iff.2 hsend)
  have hpiece := enqueue_piece_eq hget false
    (rem.take (min rem.length (min (min r.sendWindow s.sessionSendWindow).toNat s.cfg.maxDataPayload.val)))
  rw [List.length_take_of_le (min_le_left _ _), if_neg Bool.false_ne_true] at hpiece
  simp only [drainWrite, avail_of_get hget, pieceSize, if_pos hsend, hlast, decide_false,
    Bool.false_and, Bool.false_eq_true, if_false, hpiece]

end

/-- The gate on one write of a stream in the table is the cut of the write (R305). -/
theorem drainWrite_eq_cut (turns : Nat) {sid : StreamId} (rem : Bytes) (fin : Bool) {s : State}
    {r : Stream} (hget : tableGet s.streams sid = some r) :
    drainWrite turns sid rem fin s =
      (afterGate sid r fin (cutWrite s.cfg.maxDataPayload.val turns
        (min r.sendWindow s.sessionSendWindow) rem) s,
      (cutWrite s.cfg.maxDataPayload.val turns (min r.sendWindow s.sessionSendWindow) rem).2) := by
  induction turns generalizing rem r s with
  | zero => simp [drainWrite, cutWrite, afterGate, queuePieces_nil]
  | succ turns ih =>
    generalize ha : min r.sendWindow s.sessionSendWindow = a
    by_cases hstop : NoCredit s.cfg.maxDataPayload.val rem a
    case pos =>
      rw [drainWrite_of_noCredit hget ha hstop, cutWrite_of_noCredit hstop, afterGate,
        if_neg (fun h => nomatch h.1), queuePieces_nil]
    case neg =>
      by_cases hlast : min rem.length (min a.toNat s.cfg.maxDataPayload.val) = rem.length
      case pos => rw [drainWrite_last hget ha hstop turns fin hlast, cutWrite_last hstop hlast]
      case neg =>
        obtain ⟨hle, -⟩ := piece_bounds hstop rfl
        rw [drainWrite_piece hget ha hstop turns fin rfl hlast, cutWrite_piece hstop rfl hlast]
        generalize min rem.length (min a.toNat s.cfg.maxDataPayload.val) = n at *
        have hlen : (rem.take n).length = n := List.length_take_of_le hle
        have hflat : ([rem.take n] : List Bytes).flatten.length = n := by simpa using hle
        have hget' := tableGet_queuePieces (fin := false) (sent := [rem.take n]) hget
        have hcredit : min (r.sendWindow - (n : Int)) (s.sessionSendWindow - (n : Int)) = a - n := by
          omega
        have hcons := afterGate_cons (sid := sid) (r := r) (fin := fin) (piece := rem.take n)
          (cutWrite_sound s.cfg.maxDataPayload.val turns (a - n) (rem.drop n)).finished s
        rw [hflat] at hget'
        rw [hlen] at hcons
        rw [ih (rem.drop n) hget', ← hcons]
        simp only [queuePieces, hflat, hcredit]

end Sys2Proof
end

section
/-! PROOF. What the gate leaves of the state (R305): the whole state after one write (O32), and the two
halves of the flow-control property (R244). -/

namespace Sys2Proof

open Machine

/-! ### The last piece of a write with FIN (R196, R197) -/

section

variable {sid : StreamId} {s : State} {r : Stream} (hget : tableGet s.streams sid = some r)
include hget

/-- FIN on an open stream leaves it half closed on this side. -/
theorem finishLocal_of_opened (hopened : r.state = .opened) :
    finishLocal sid s = putStream sid { r with state := .halfClosedLocal } s := by
  have hfin : transition sid .sendFin s = .ok (putStream sid { r with state := .halfClosedLocal } s) :=
    transition_eq_ok.2 ⟨r, _, hget, by rw [hopened]; rfl, rfl⟩
  simp [finishLocal, hfin, removeIfClosed]

/-- FIN on a stream the peer has finished removes it. -/
theorem finishLocal_of_halfClosedRemote (hremote : r.state = .halfClosedRemote) :
    finishLocal sid s = emit (.onStreamClosed sid .normal) (closeStream sid s) := by
  have hfin : transition sid .sendFin s = .ok (putStream sid { r with state := .closed } s) :=
    transition_eq_ok.2 ⟨r, _, hget, by rw [hremote]; rfl, rfl⟩
  simp [finishLocal, hfin, removeIfClosed, closeStream, putStream, tableErase_put]

end

/-! ### The state after the gate -/

/-- The state in the terms of O32: the pieces queued and paid for, and this side closed by FIN. -/
theorem afterGate_eq {sid : StreamId} {s : State} {r : Stream} {fin : Bool}
    {cut : List Bytes × Option Bytes} (hwf : tableWf s.streams = true)
    (hget : tableGet s.streams sid = some r) (hsend : r.state = .opened ∨ r.state = .halfClosedRemote)
    (hcut : cut.2 = none → cut.1 ≠ []) :
    afterGate sid r fin cut s = { s with
      streams := if (cut.2 = none ∧ fin = true) ∧ r.state = .halfClosedRemote
        then tableErase s.streams sid
        else tablePut s.streams sid { r with
          sendWindow := r.sendWindow - cut.1.flatten.length
          state := if cut.2 = none ∧ fin = true then .halfClosedLocal else r.state }
      sessionSendWindow := s.sessionSendWindow - cut.1.flatten.length
      tierq := s.tierq.set r.tier
        (s.tierq[r.tier] ++ pieceFrames s.cfg sid (cut.2 = none && fin) cut.1)
      events := s.events ++ (if (cut.2 = none ∧ fin = true) ∧ r.state = .halfClosedRemote
        then [.onStreamClosed sid .normal] else []) } := by
  by_cases hfin : cut.2 = none ∧ fin = true
  case pos =>
    have hflag : (decide (cut.2 = none) && fin) = true := by simp [hfin]
    have hne := hcut hfin.1
    have hget' := tableGet_queuePieces (fin := true) (sent := cut.1) hget
    rw [afterGate, if_pos hfin, hflag]
    obtain hopened | hremote := hsend
    · rw [finishLocal_of_opened hget' hopened]
      simp [queuePieces, putStream, hne, hfin, hopened, tablePut_put]
    · rw [finishLocal_of_halfClosedRemote hget' hremote]
      simp [queuePieces, closeStream, emit, hne, hfin, hremote, tableErase_put]
  case neg =>
    have hflag : (decide (cut.2 = none) && fin) = false := by
      simpa [not_and] using hfin
    rw [afterGate, if_neg hfin, hflag, queuePieces]
    by_cases hnil : cut.1 = []
    · simp [hnil, hfin, tablePut_self hwf hget]
    · simp [hnil, hfin]

/-- Settles O32: the cut of the write is sound, and the state is `afterGate`'s. -/
theorem drainKeepsBytes : Obligations.DrainKeepsBytes := by
  unfold Obligations.DrainKeepsBytes
  intro s t sid bytes fin left r hwf hget hsend hgate
  rw [drainWrite_eq_cut _ bytes fin hget] at hgate
  have hsound := cutWrite_sound s.cfg.maxDataPayload.val (bytes.length + 1)
    (min r.sendWindow s.sessionSendWindow) bytes
  generalize cutWrite s.cfg.maxDataPayload.val (bytes.length + 1)
    (min r.sendWindow s.sessionSendWindow) bytes = cut at *
  obtain ⟨hbytes, hfits, hfinished, hpaid, hstuck⟩ := hsound
  obtain ⟨rfl, rfl⟩ := Prod.mk.inj hgate
  have hcredit (x : Int) : min r.sendWindow s.sessionSendWindow - x =
      min (r.sendWindow - x) (s.sessionSendWindow - x) := by omega
  refine ⟨cut.1, hbytes, hfits, hfinished, fun hne => le_min_iff.1 (hpaid hne),
    afterGate_eq hwf hget hsend hfinished, fun hleft => ?_, fun rem hleft => ?_⟩
  · have hnone := hstuck (Nat.lt_succ_self _) _ hleft
    rw [hcredit] at hnone
    exact hnone.1 rfl
  · have hnone := hstuck (Nat.lt_succ_self _) _ hleft
    rw [hcredit] at hnone
    exact hnone.2

/-! ### `DRAIN` with one write pending -/

/-- With one write pending, `DRAIN` is the gate on it. -/
theorem drain_of_single {s : State} {sid : StreamId} {bytes : Bytes} {fin : Bool} {r : Stream}
    (hpending : s.pending = [⟨sid, bytes, fin⟩]) (hget : tableGet s.streams sid = some r)
    {cut : List Bytes × Option Bytes} (hcut : cutWrite s.cfg.maxDataPayload.val (bytes.length + 1)
      (min r.sendWindow s.sessionSendWindow) bytes = cut) :
    drain s = { afterGate sid r fin cut s with
      pending := (cut.2.map fun rem => ⟨sid, rem, fin⟩).toList } := by
  have hgate := drainWrite_eq_cut (bytes.length + 1) bytes fin hget
  rw [hcut] at hgate
  rw [drain, hpending]
  cases hleft : cut.2 <;> rw [hleft] at hgate <;> simp [drainFrom, hgate]

/-- Settles O34: one byte with credit is one piece, the last. -/
theorem oneByteReleased : Obligations.OneByteReleased := by
  unfold Obligations.OneByteReleased
  intro s sid b fin r k hget hsend hwindow hk hcap hsession hpending completes
  have hcredit : ¬ NoCredit s.cfg.maxDataPayload.val [b] (min r.sendWindow s.sessionSendWindow) := by
    intro hnone
    have := hnone.2 nofun hcap.ne'
    omega
  have hcut := cutWrite_last (turns := 1) hcredit (by simp only [List.length_singleton]; omega)
  have hget' := tableGet_queuePieces (fin := true) (sent := [[b]]) hget
  have hk' : r.sendWindow - ((([[b]] : List Bytes).flatten.length : Nat) : Int) = k - 1 := by
    rw [hwindow]; rfl
  rw [drain_of_single hpending hget hcut, afterGate]
  cases fin with
  | false => simp [completes, queuePieces, pieceFrames_last, hwindow]
  | true =>
    rw [if_pos ⟨rfl, rfl⟩]
    obtain hopened | hremote := hsend
    · rw [finishLocal_of_opened hget' hopened, hk']
      simp [completes, queuePieces, pieceFrames_last, putStream, hopened, tablePut_put]
    · rw [finishLocal_of_halfClosedRemote hget' hremote]
      simp [completes, queuePieces, pieceFrames_last, closeStream, emit, hremote, tableErase_put]

/-! ### One byte more than the window (R244) -/

/-- With the transport blocked and a write left over, the epilogue is `DRAIN` alone. -/
theorem epilogue_of_blocked {s : State} (hlive : ended s = false) (hblocked : s.txReady = false)
    (hpending : (drain s).pending ≠ []) : epilogue s = .next (drain s) := by
  have hready : (drain s).txReady = false := by
    rw [drain_eq]
    exact hblocked
  have hwork : nothingLeft (drain s) = false := by
    simp [nothingLeft, hpending]
  rw [epilogue, hlive, if_neg Bool.false_ne_true, pump, pumpTurns_of_blocked hready, andThen_next,
    tearDownIfDone, hwork]
  simp

/-- Of `W + 1` bytes on a window of `W`, the first `W` are one piece and the last byte stays. -/
theorem cutWrite_oneMore {cap W : Nat} {bytes : Bytes} (hlen : bytes.length = W + 1) (hpos : 0 < W)
    (hcap : W ≤ cap) :
    cutWrite cap (bytes.length + 1) (W : Int) bytes = ([bytes.take W], some (bytes.drop W)) := by
  have hne : bytes ≠ [] := List.ne_nil_of_length_eq_add_one hlen
  have hcredit : ¬ NoCredit cap bytes (W : Int) := fun hnone => by
    have := hnone.2 hne (by omega)
    omega
  have hdrop : bytes.drop W ≠ [] := List.ne_nil_of_length_pos (by rw [List.length_drop]; omega)
  have hstuck : NoCredit cap (bytes.drop W) ((W : Int) - W) :=
    ⟨fun h => absurd h hdrop, fun _ _ => by omega⟩
  rw [cutWrite_piece hcredit (n := W) (by omega) (by omega), cutWrite_of_noCredit hstuck]

/-- Settles O33. -/
theorem sendOneMoreThanWindow : Obligations.SendOneMoreThanWindow := by
  unfold Obligations.SendOneMoreThanWindow
  intro s sid bytes fin rest r W hidle hinbox hmode hblocked hpending hget hsend hfin hwindow hpos hcap
    hsession hlen
  have hlive : ended s = false :=
    ended_eq_false (by rintro h; simp [h] at hmode) (by rintro h; simp [h] at hmode)
  have haccept : runCommand (.sendData sid bytes fin) { s with inbox := rest } =
      acceptWrite sid r bytes fin { s with inbox := rest } :=
    cmdSendData_of_sendable (s := { s with inbox := rest }) hlive bytes fin hget hsend hfin
  generalize hu : ({ s with
      inbox := rest
      pending := s.pending ++ [⟨sid, bytes, fin⟩]
      streams := if fin then tablePut s.streams sid { r with localFinQueued := true }
        else s.streams } : State) = u
  have hget' : tableGet u.streams sid = some { r with localFinQueued := fin } := by
    subst hu
    cases fin
    · have hrecord : r = { r with localFinQueued := false } := by rw [← hfin]
      exact hget.trans (congrArg some hrecord)
    · exact tableGet_put_self _ _ _
  have hcut : cutWrite u.cfg.maxDataPayload.val (bytes.length + 1)
      (min r.sendWindow u.sessionSendWindow) bytes = ([bytes.take W], some (bytes.drop W)) := by
    have hsession' : u.sessionSendWindow = s.sessionSendWindow := by rw [← hu]
    rw [show min r.sendWindow u.sessionSendWindow = W by omega]
    exact cutWrite_oneMore hlen hpos (hu ▸ hcap)
  have hdrain := drain_of_single (s := u) (by rw [← hu, hpending]; rfl) hget' hcut
  have hepilogue := epilogue_of_blocked (s := u) (by rw [← hu]; exact hlive)
    (by rw [← hu]; exact hblocked) (by rw [hdrain]; exact List.cons_ne_nil _ _)
  have hwaits : dataWaiting sid (drain u) = true := by
    rw [hdrain]
    simp [dataWaiting]
  have hpiece : (([bytes.take W] : List Bytes).flatten.length : Int) = W := by
    simp only [List.flatten_cons, List.flatten_nil, List.append_nil, List.length_take]
    omega
  have hput : tablePut u.streams sid { r with localFinQueued := fin, sendWindow := 0 } =
      tablePut s.streams sid { r with sendWindow := 0, localFinQueued := fin } := by
    subst hu
    cases fin <;> simp [tablePut_put]
  rw [step_of_command hidle hinbox, haccept, acceptWrite_eq, hu, hepilogue, andThen_next, hwaits,
    if_pos rfl, hdrain]
  simp only [afterGate, reduceCtorEq, false_and, if_false, queuePieces, List.cons_ne_nil, hpiece,
    hwindow, Int.sub_self, hput, pieceFrames_last, Bool.false_eq_true, ret]
  subst hu
  rw [← hidle]
  rfl

end Sys2Proof
end

section
/-! PROOF. The walk of `DRAIN` over all pending writes (R305, R239): each write goes through the gate or
waits behind one of its own stream, so nothing is dropped and nothing overtakes (O59). -/

namespace Sys2Proof

open Machine

/-! ### The walk, write by write -/

theorem drainFrom_of_stuck {w : PendingWrite} {stuck : List StreamId} (h : w.sid ∈ stuck)
    (rest : List PendingWrite) (s : State) : drainFrom (w :: rest) stuck s =
      ((drainFrom rest stuck s).1, w :: (drainFrom rest stuck s).2) := by
  simp only [drainFrom, if_pos h]

section

variable {w : PendingWrite} {stuck : List StreamId} (h : w.sid ∉ stuck) (rest : List PendingWrite)
  {s u : State}
include h

theorem drainFrom_of_left {rem : Bytes}
    (hgate : drainWrite (w.bytes.length + 1) w.sid w.bytes w.fin s = (u, some rem)) :
    drainFrom (w :: rest) stuck s = ((drainFrom rest (w.sid :: stuck) u).1,
      { w with bytes := rem } :: (drainFrom rest (w.sid :: stuck) u).2) := by
  simp only [drainFrom, if_neg h, hgate]

theorem drainFrom_of_done
    (hgate : drainWrite (w.bytes.length + 1) w.sid w.bytes w.fin s = (u, none)) :
    drainFrom (w :: rest) stuck s = drainFrom rest stuck u := by
  simp only [drainFrom, if_neg h, hgate]

end

/-! ### One write through the gate, whatever the state -/

/-- A write of `rem` bytes on a stream is held back: the stream is not in the table, or has no credit. -/
def Held (sid : StreamId) (rem : Bytes) (s : State) : Prop :=
  avail sid s = none ∨ ∃ a, avail sid s = some a ∧ NoCredit s.cfg.maxDataPayload.val rem a

/-- What the gate makes of a write: the pieces queued, what is left, and the state after (R305). -/
structure GateStep (s : State) (w : PendingWrite) (sent : List Bytes) (left : Option Bytes) (u : State) :
    Prop where
  bytes : sent.flatten ++ left.getD [] = w.bytes
  finished : left = none → sent ≠ []
  fits : ∀ b ∈ sent, b.length ≤ s.cfg.maxDataPayload.val
  known : tableGet s.streams w.sid = none → sent = []
  window : u.sessionSendWindow = s.sessionSendWindow - sent.flatten.length
  queues : ∀ i : Fin 8, u.tierq[i] = s.tierq[i] ++
    if (tableGet s.streams w.sid).map (·.tier) = some i
    then pieceFrames s.cfg w.sid (left = none && w.fin) sent else []
  others : ∀ k, k ≠ w.sid → tableGet u.streams k = tableGet s.streams k
  tiers : ∀ k, tableGet u.streams k = none ∨
    (tableGet u.streams k).map (·.tier) = (tableGet s.streams k).map (·.tier)
  cfg : u.cfg = s.cfg
  held : ∀ rem, left = some rem → Held w.sid rem u

theorem GateStep.unknown {s u : State} {w : PendingWrite} {sent : List Bytes} {left : Option Bytes}
    (h : GateStep s w sent left u) {k : StreamId} (hk : tableGet s.streams k = none) :
    tableGet u.streams k = none := by
  obtain hnone | hsame := h.tiers k
  · exact hnone
  · rwa [hk, Option.map_none, Option.map_eq_none_iff] at hsame

theorem drainWrite_of_unknown {sid : StreamId} {s : State} (h : tableGet s.streams sid = none)
    (turns : Nat) (rem : Bytes) (fin : Bool) : drainWrite turns sid rem fin s = (s, some rem) := by
  cases turns <;> simp [drainWrite, avail, h]

/-- FIN on the last piece leaves the queues, the windows and the other streams alone, and removes the
stream or keeps it in its tier. -/
theorem finishLocal_cases (sid : StreamId) (s : State) :
    finishLocal sid s = s ∨
      (∃ r st, tableGet s.streams sid = some r ∧ nextState r.state .sendFin = some st ∧
        finishLocal sid s = putStream sid { r with state := st } s) ∨
      finishLocal sid s = emit (.onStreamClosed sid .normal) (closeStream sid s) := by
  unfold finishLocal
  obtain h | ⟨r, st, hr, hst, h⟩ := orElseSame_transition sid .sendFin s <;> rw [h]
  · obtain ⟨h, -⟩ | ⟨-, -, -, h⟩ := removeIfClosed_cases sid s
    · exact .inl h
    · exact .inr (.inr h)
  · obtain ⟨h, -⟩ | ⟨-, -, -, h⟩ :=
      removeIfClosed_cases sid (putStream sid { r with state := st } s)
    · exact .inr (.inl ⟨r, st, hr, hst, h⟩)
    · rw [h]
      exact .inr (.inr (by simp [closeStream, putStream, emit, tableErase_put]))

theorem finishLocal_frame (sid : StreamId) (s : State) :
    (finishLocal sid s).sessionSendWindow = s.sessionSendWindow ∧
      (finishLocal sid s).tierq = s.tierq ∧ (finishLocal sid s).cfg = s.cfg ∧
      (∀ k, k ≠ sid → tableGet (finishLocal sid s).streams k = tableGet s.streams k) ∧
      (tableGet (finishLocal sid s).streams sid = none ∨
        (tableGet (finishLocal sid s).streams sid).map (·.tier) =
          (tableGet s.streams sid).map (·.tier)) := by
  obtain h | ⟨r, st, hget, -, h⟩ | h := finishLocal_cases sid s <;> rw [h]
  · exact ⟨rfl, rfl, rfl, fun _ _ => rfl, .inr rfl⟩
  · refine ⟨rfl, rfl, rfl, fun k hk => tableGet_put_ne _ _ hk.symm, .inr ?_⟩
    simp [putStream, hget]
  · exact ⟨rfl, rfl, rfl, fun k hk => tableGet_erase_ne _ hk.symm, .inl (tableGet_erase_self _ _)⟩

theorem queuePieces_tierq (sid : StreamId) (r : Stream) (fin : Bool) (sent : List Bytes) (s : State)
    (i : Fin 8) : (queuePieces sid r fin sent s).tierq[i] =
      s.tierq[i] ++ if r.tier = i then pieceFrames s.cfg sid fin sent else [] := by
  have h := setQueue_getElem r.tier (s.tierq[r.tier] ++ pieceFrames s.cfg sid fin sent) s i
  refine h.trans ?_
  split
  next hi => subst hi; rfl
  next => rw [List.append_nil]

/-- The pieces without a FIN of the state after the gate, as a step of the walk. -/
theorem drainWrite_gateStep (s : State) (w : PendingWrite) : ∃ sent, GateStep s w sent
    (drainWrite (w.bytes.length + 1) w.sid w.bytes w.fin s).2
    (drainWrite (w.bytes.length + 1) w.sid w.bytes w.fin s).1 := by
  cases hget : tableGet s.streams w.sid with
  | none =>
    rw [drainWrite_of_unknown hget]
    refine ⟨[], rfl, nofun, nofun, fun _ => rfl, by simp, fun i => ?_, fun _ _ => rfl,
      fun _ => .inr rfl, rfl, fun rem _ => .inl (by rw [avail, hget]; rfl)⟩
    rw [hget, Option.map_none, if_neg nofun, List.append_nil]
  | some r =>
    rw [drainWrite_eq_cut _ w.bytes w.fin hget]
    have hsound := cutWrite_sound s.cfg.maxDataPayload.val (w.bytes.length + 1)
      (min r.sendWindow s.sessionSendWindow) w.bytes
    generalize cutWrite s.cfg.maxDataPayload.val (w.bytes.length + 1)
      (min r.sendWindow s.sessionSendWindow) w.bytes = cut at *
    obtain ⟨hbytes, hfits, hfinished, -, hstuck⟩ := hsound
    refine ⟨cut.1, ?_⟩
    have hget' (fin : Bool) := tableGet_queuePieces (fin := fin) (sent := cut.1) hget
    have htiers (fin : Bool) (k : StreamId) :
        (tableGet (queuePieces w.sid r fin cut.1 s).streams k).map (·.tier) =
          (tableGet s.streams k).map (·.tier) := by
      by_cases hk : w.sid = k
      · rw [← hk, hget', hget]
        rfl
      · rw [tableGet_queuePieces_ne hk]
    have hknown : tableGet s.streams w.sid = none → cut.1 = [] := by simp [hget]
    rw [afterGate]
    by_cases hfin : cut.2 = none ∧ w.fin = true
    case pos =>
      obtain ⟨hwindow, hqueues, hcfg, hothers, htier⟩ :=
        finishLocal_frame w.sid (queuePieces w.sid r true cut.1 s)
      rw [if_pos hfin]
      refine ⟨hbytes, hfinished, hfits, hknown, hwindow, fun i => ?_, fun k hk => ?_, fun k => ?_, hcfg,
        fun rem hrem => absurd (hfin.1.symm.trans hrem) nofun⟩
      · rw [hqueues, queuePieces_tierq, hget]
        simp [hfin]
      · rw [hothers k hk, tableGet_queuePieces_ne hk.symm]
      · rw [← htiers true k]
        by_cases hk : k = w.sid
        · rw [hk]
          exact htier
        · exact .inr (by rw [hothers k hk])
    case neg =>
      have hflag : (decide (cut.2 = none) && w.fin) = false := by simpa [not_and] using hfin
      rw [if_neg hfin]
      refine ⟨hbytes, hfinished, hfits, hknown, rfl, fun i => ?_,
        fun k hk => tableGet_queuePieces_ne hk.symm, fun k => .inr (htiers false k), rfl,
        fun rem hrem => .inr ⟨_, avail_of_get (hget' false), ?_⟩⟩
      · rw [queuePieces_tierq, hget, hflag]
        simp
      · refine (hstuck (Nat.lt_succ_self _) rem hrem).mono ?_
        simp only [queuePieces]
        omega

/-! ### The whole walk -/

/-- What the walk makes of the writes `ws` when those of the streams in `stuck` already wait. -/
structure PassSound (s : State) (ws : List PendingWrite) (stuck : List StreamId)
    (pass : List GateOutcome) (t : State) (new : List PendingWrite) : Prop where
  writes : pass.map (·.write) = ws
  each : ∀ o ∈ pass, o.sent.flatten ++ o.left.getD [] = o.write.bytes ∧ (o.left = none → o.sent ≠ []) ∧
    (∀ b ∈ o.sent, b.length ≤ s.cfg.maxDataPayload.val) ∧
    (tableGet s.streams o.write.sid = none → o.sent = [])
  untouched : ∀ o ∈ pass, o.write.sid ∈ stuck → o.sent = [] ∧ o.left = some o.write.bytes
  ordered : pass.Pairwise fun a b => a.write.sid = b.write.sid → a.left ≠ none →
    b.sent = [] ∧ b.left = some b.write.bytes
  waits : new = pass.filterMap GateOutcome.waits
  window : t.sessionSendWindow = s.sessionSendWindow - ((pass.flatMap (·.sent)).flatten.length : Nat)
  queues : ∀ i : Fin 8, t.tierq[i] = s.tierq[i] ++ pass.flatMap fun o =>
    if (tableGet s.streams o.write.sid).map (·.tier) = some i
    then pieceFrames s.cfg o.write.sid (o.left = none && o.write.fin) o.sent else []

theorem passSound_nil (s : State) (stuck : List StreamId) : PassSound s [] stuck [] s [] where
  writes := rfl
  each := nofun
  untouched := nofun
  ordered := .nil
  waits := rfl
  window := by simp
  queues := by simp

/-- A write behind an unfinished one of its stream is left whole. -/
theorem PassSound.cons_stuck {s t : State} {w : PendingWrite} {rest new : List PendingWrite}
    {stuck : List StreamId} {pass : List GateOutcome} (h : PassSound s rest stuck pass t new)
    (hw : w.sid ∈ stuck) :
    PassSound s (w :: rest) stuck (⟨w, [], some w.bytes⟩ :: pass) t (w :: new) where
  writes := by rw [List.map_cons, h.writes]
  each := List.forall_mem_cons.2 ⟨⟨rfl, nofun, nofun, fun _ => rfl⟩, h.each⟩
  untouched := List.forall_mem_cons.2 ⟨fun _ => ⟨rfl, rfl⟩, h.untouched⟩
  ordered := List.pairwise_cons.2 ⟨fun o ho heq _ => h.untouched o ho (heq ▸ hw), h.ordered⟩
  waits := by rw [List.filterMap_cons, h.waits]; rfl
  window := by rw [h.window, List.flatMap_cons, List.nil_append]
  queues := fun i => by
    rw [h.queues i, List.flatMap_cons]
    simp [pieceFrames_nil]

/-- A write that went through the gate, then the rest of the walk. -/
theorem PassSound.cons_gate {s u t : State} {w : PendingWrite} {rest new : List PendingWrite}
    {stuck stuck' : List StreamId} {pass : List GateOutcome} {sent : List Bytes} {left : Option Bytes}
    (hgate : GateStep s w sent left u) (h : PassSound u rest stuck' pass t new) (hw : w.sid ∉ stuck)
    (hsub : stuck ⊆ stuck') (hstuck : left ≠ none → w.sid ∈ stuck') :
    PassSound s (w :: rest) stuck (⟨w, sent, left⟩ :: pass) t
      ((left.map fun rem => { w with bytes := rem }).toList ++ new) where
  writes := by rw [List.map_cons, h.writes]
  each := by
    refine List.forall_mem_cons.2 ⟨⟨hgate.bytes, hgate.finished, hgate.fits, hgate.known⟩,
      fun o ho => ?_⟩
    obtain ⟨hbytes, hfinished, hfits, hknown⟩ := h.each o ho
    exact ⟨hbytes, hfinished, hgate.cfg ▸ hfits, fun hnone => hknown (hgate.unknown hnone)⟩
  untouched := List.forall_mem_cons.2
    ⟨fun hmem => absurd hmem hw, fun o ho hmem => h.untouched o ho (hsub hmem)⟩
  ordered := List.pairwise_cons.2
    ⟨fun o ho heq hleft => h.untouched o ho (heq ▸ hstuck hleft), h.ordered⟩
  waits := by
    rw [h.waits]
    cases left <;> rfl
  window := by
    rw [h.window, hgate.window, List.flatMap_cons, List.flatten_append, List.length_append]
    dsimp only
    omega
  queues := fun i => by
    have hrest : ∀ o ∈ pass,
        (if (tableGet u.streams o.write.sid).map (·.tier) = some i
          then pieceFrames u.cfg o.write.sid (o.left = none && o.write.fin) o.sent else []) =
        if (tableGet s.streams o.write.sid).map (·.tier) = some i
          then pieceFrames s.cfg o.write.sid (o.left = none && o.write.fin) o.sent else [] := by
      intro o ho
      rw [hgate.cfg]
      obtain hnone | hsame := hgate.tiers o.write.sid
      · obtain ⟨-, -, -, hknown⟩ := h.each o ho
        rw [hknown hnone, pieceFrames_nil, ite_self, ite_self]
      · rw [hsame]
    rw [h.queues i, hgate.queues i, List.flatMap_cons, List.append_assoc, List.flatMap_congr hrest]

theorem drainFrom_passSound (ws : List PendingWrite) (stuck : List StreamId) (s : State) :
    ∃ pass, PassSound s ws stuck pass (drainFrom ws stuck s).1 (drainFrom ws stuck s).2 := by
  induction ws generalizing stuck s with
  | nil => exact ⟨[], passSound_nil s stuck⟩
  | cons w rest ih =>
    by_cases hw : w.sid ∈ stuck
    case pos =>
      obtain ⟨pass, h⟩ := ih stuck s
      rw [drainFrom_of_stuck hw]
      exact ⟨_, h.cons_stuck hw⟩
    case neg =>
      obtain ⟨sent, hgate⟩ := drainWrite_gateStep s w
      generalize hu : drainWrite (w.bytes.length + 1) w.sid w.bytes w.fin s = out at hgate
      obtain ⟨u, left⟩ := out
      cases left with
      | none =>
        obtain ⟨pass, h⟩ := ih stuck u
        rw [drainFrom_of_done hw rest hu]
        exact ⟨_, h.cons_gate hgate hw (List.Subset.refl _) fun h => absurd rfl h⟩
      | some rem =>
        obtain ⟨pass, h⟩ := ih (w.sid :: stuck) u
        rw [drainFrom_of_left hw rest hu]
        exact ⟨_, h.cons_gate hgate hw (List.subset_cons_self _ _) fun _ => List.mem_cons_self⟩

/-! ### Whatever is left is held back at the end of the walk -/

/-- Once a stream's write waits, the walk leaves the stream alone and only lowers the session window. -/
theorem drainFrom_stuck_frame (ws : List PendingWrite) {stuck : List StreamId} {k : StreamId}
    (hk : k ∈ stuck) (s : State) :
    tableGet (drainFrom ws stuck s).1.streams k = tableGet s.streams k ∧
      (drainFrom ws stuck s).1.sessionSendWindow ≤ s.sessionSendWindow := by
  induction ws generalizing stuck s with
  | nil => exact ⟨rfl, le_rfl⟩
  | cons w rest ih =>
    by_cases hw : w.sid ∈ stuck
    case pos =>
      rw [drainFrom_of_stuck hw]
      exact ih hk s
    case neg =>
      obtain ⟨sent, hgate⟩ := drainWrite_gateStep s w
      generalize hu : drainWrite (w.bytes.length + 1) w.sid w.bytes w.fin s = out at hgate
      obtain ⟨u, left⟩ := out
      have hne : k ≠ w.sid := fun h => hw (h ▸ hk)
      have hsame := hgate.others k hne
      have hlow : u.sessionSendWindow = s.sessionSendWindow - sent.flatten.length := hgate.window
      cases left with
      | none =>
        rw [drainFrom_of_done hw rest hu, ← hsame]
        obtain ⟨hget, hwindow⟩ := ih hk u
        exact ⟨hget, by omega⟩
      | some rem =>
        rw [drainFrom_of_left hw rest hu, ← hsame]
        obtain ⟨hget, hwindow⟩ := ih (List.mem_cons_of_mem _ hk) u
        exact ⟨hget, hwindow.trans (by omega)⟩

theorem drainFrom_cfg (ws : List PendingWrite) (stuck : List StreamId) (s : State) :
    (drainFrom ws stuck s).1.cfg = s.cfg := by
  rw [drainFrom_eq]

/-- A write that is held back stays so while its stream keeps its record and no credit is added. -/
theorem Held.mono {sid : StreamId} {rem : Bytes} {s t : State} (h : Held sid rem s)
    (hget : tableGet t.streams sid = tableGet s.streams sid)
    (hwindow : t.sessionSendWindow ≤ s.sessionSendWindow) (hcfg : t.cfg = s.cfg) : Held sid rem t := by
  unfold Held at h ⊢
  rw [hcfg]
  cases hs : tableGet s.streams sid with
  | none => exact .inl (by rw [avail, hget, hs]; rfl)
  | some r =>
    obtain hnone | ⟨a, ha, hcredit⟩ := h
    · rw [avail_of_get hs] at hnone
      cases hnone
    · obtain rfl := Option.some_inj.1 ((avail_of_get hs).symm.trans ha)
      exact .inr ⟨_, avail_of_get (hget.trans hs), hcredit.mono (by omega)⟩

/-- Each write of a list waits behind one of its stream, or is held back itself. -/
def AllHeld (ws : List PendingWrite) (stuck : List StreamId) (s : State) : Prop :=
  ∀ before w after, ws = before ++ w :: after →
    (∃ e ∈ before, e.sid = w.sid) ∨ w.sid ∈ stuck ∨ Held w.sid w.bytes s

theorem allHeld_cons {v : PendingWrite} {ws : List PendingWrite} {stuck : List StreamId} {s : State} :
    AllHeld (v :: ws) stuck s ↔
      (v.sid ∈ stuck ∨ Held v.sid v.bytes s) ∧ AllHeld ws (v.sid :: stuck) s := by
  constructor
  · intro h
    refine ⟨(h [] v ws rfl).resolve_left nofun, fun before w after hws => ?_⟩
    obtain ⟨e, he, heq⟩ | hrest := h (v :: before) w after (by rw [hws]; rfl)
    · obtain rfl | he := List.mem_cons.1 he
      · exact .inr (.inl (heq ▸ List.mem_cons_self))
      · exact .inl ⟨e, he, heq⟩
    · exact .inr (hrest.imp (List.mem_cons_of_mem _) id)
  · rintro ⟨hv, hws⟩ before w after heq
    cases before with
    | nil =>
      obtain ⟨rfl, rfl⟩ := List.cons.inj heq
      exact .inr hv
    | cons b before =>
      obtain ⟨rfl, rfl⟩ := List.cons.inj heq
      obtain ⟨e, he, hsid⟩ | hstuck | hheld := hws before w after rfl
      · exact .inl ⟨e, List.mem_cons_of_mem _ he, hsid⟩
      · obtain hsid | hstuck := List.mem_cons.1 hstuck
        · exact .inl ⟨v, List.mem_cons_self, hsid.symm⟩
        · exact .inr (.inl hstuck)
      · exact .inr (.inr hheld)

theorem AllHeld.mono {ws : List PendingWrite} {stuck stuck' : List StreamId} {s : State}
    (h : AllHeld ws stuck s) (hsub : stuck ⊆ stuck') : AllHeld ws stuck' s :=
  fun before w after hws => (h before w after hws).imp id (Or.imp (fun hmem => hsub hmem) id)

theorem drainFrom_allHeld (ws : List PendingWrite) (stuck : List StreamId) (s : State) :
    AllHeld (drainFrom ws stuck s).2 stuck (drainFrom ws stuck s).1 := by
  induction ws generalizing stuck s with
  | nil => exact fun before w after h => by cases before <;> cases h
  | cons w rest ih =>
    by_cases hw : w.sid ∈ stuck
    case pos =>
      rw [drainFrom_of_stuck hw]
      exact allHeld_cons.2 ⟨.inl hw, (ih stuck s).mono (List.subset_cons_self _ _)⟩
    case neg =>
      obtain ⟨sent, hgate⟩ := drainWrite_gateStep s w
      generalize hu : drainWrite (w.bytes.length + 1) w.sid w.bytes w.fin s = out at hgate
      obtain ⟨u, left⟩ := out
      cases left with
      | none =>
        rw [drainFrom_of_done hw rest hu]
        exact ih stuck u
      | some rem =>
        rw [drainFrom_of_left hw rest hu]
        obtain ⟨hget, hwindow⟩ := drainFrom_stuck_frame rest (stuck := w.sid :: stuck)
          List.mem_cons_self u
        exact allHeld_cons.2 ⟨.inr ((hgate.held rem rfl).mono hget hwindow (drainFrom_cfg _ _ _)),
          ih (w.sid :: stuck) u⟩

/-- `DRAIN` leaves only writes that are held back (R239). -/
theorem drain_allHeld (s : State) : AllHeld (drain s).pending [] (drain s) :=
  drainFrom_allHeld s.pending [] s

/-! ### The bytes of one stream -/

theorem queuedPayload_append (sid : StreamId) (q q' : List QueueEntry) :
    queuedPayload sid (q ++ q') = queuedPayload sid q ++ queuedPayload sid q' :=
  List.flatMap_append

/-- The pieces of a write are its own stream's payload, in order. -/
theorem queuedPayload_pieceFrames (c : Cfg) (sid k : StreamId) (fin : Bool) (sent : List Bytes) :
    queuedPayload sid (pieceFrames c k fin sent) = if k = sid then sent.flatten else [] := by
  rw [queuedPayload, pieceFrames, List.flatMap_map]
  split
  next h =>
    dsimp only
    rw [List.flatMap_def, show (fun x : Bytes × Nat => x.1) = Prod.fst from rfl, List.zipIdx_map_fst]
  next h => simp

theorem pendingBytes_cons (sid : StreamId) (w : PendingWrite) (ws : List PendingWrite) :
    pendingBytes sid (w :: ws) = (if w.sid = sid then w.bytes else []) ++ pendingBytes sid ws := by
  by_cases h : w.sid = sid <;> simp [pendingBytes, h]

/-- The payload a pass queues for a stream. -/
def sentBytes (sid : StreamId) (pass : List GateOutcome) : Bytes :=
  pass.flatMap fun o => if o.write.sid = sid then o.sent.flatten else []

/-- What a pass queues for a stream and what it leaves are the stream's bytes, in order. -/
theorem sentBytes_append_pendingBytes {sid : StreamId} {pass : List GateOutcome}
    (hbytes : ∀ o ∈ pass, o.sent.flatten ++ o.left.getD [] = o.write.bytes)
    (hordered : pass.Pairwise fun a b => a.write.sid = b.write.sid → a.left ≠ none →
      b.sent = [] ∧ b.left = some b.write.bytes) :
    sentBytes sid pass ++ pendingBytes sid (pass.filterMap GateOutcome.waits) =
      pendingBytes sid (pass.map (·.write)) := by
  induction pass with
  | nil => rfl
  | cons o pass ih =>
    obtain ⟨ho, hrest⟩ := List.forall_mem_cons.1 hbytes
    obtain ⟨hbehind, hordered⟩ := List.pairwise_cons.1 hordered
    have ih := ih hrest hordered
    rw [List.map_cons, pendingBytes_cons, ← ih, sentBytes, List.flatMap_cons, ← sentBytes]
    cases hleft : o.left with
    | none =>
      rw [hleft, Option.getD_none, List.append_nil] at ho
      rw [List.filterMap_cons_none (by simp [GateOutcome.waits, hleft]), List.append_assoc, ho]
    | some rem =>
      rw [hleft, Option.getD_some] at ho
      rw [List.filterMap_cons_some (b := { o.write with bytes := rem })
        (by simp [GateOutcome.waits, hleft]), pendingBytes_cons]
      by_cases hsid : o.write.sid = sid
      · have hnone : sentBytes sid pass = [] := by
          refine List.flatMap_eq_nil_iff.2 fun o' ho' => ?_
          split
          next h =>
            obtain ⟨hsent, -⟩ := hbehind o' ho' (hsid.trans h.symm) (by simp [hleft])
            rw [hsent, List.flatten_nil]
          next => rfl
        simp only [hsid, if_true, hnone, List.append_nil, List.nil_append, ← ho, List.append_assoc]
      · simp only [hsid, if_false, List.nil_append]

/-- Settles O59: the pass of the walk; its bytes per stream; and what is left is held back. -/
theorem drainKeepsEveryWrite : Obligations.DrainKeepsEveryWrite := by
  unfold Obligations.DrainKeepsEveryWrite
  intro s
  obtain ⟨pass, h⟩ := drainFrom_passSound s.pending [] s
  refine ⟨⟨pass, h.writes, h.each, h.ordered, h.waits, h.window, h.queues⟩, fun sid r hget => ?_,
    fun before w after hws => ?_⟩
  · have hqueue : queuedPayload sid (drain s).tierq[r.tier] =
        queuedPayload sid s.tierq[r.tier] ++ sentBytes sid pass := by
      have hq : (drain s).tierq[r.tier] = _ := h.queues r.tier
      rw [hq, queuedPayload_append, queuedPayload, queuedPayload, List.flatMap_assoc, ← queuedPayload,
        sentBytes]
      congr 1
      refine List.flatMap_congr fun o _ => ?_
      by_cases hsid : o.write.sid = sid
      · have htier : (tableGet s.streams o.write.sid).map (·.tier) = some r.tier := by rw [hsid, hget]; rfl
        rw [if_pos htier]
        exact queuedPayload_pieceFrames s.cfg sid _ _ _
      · rw [if_neg hsid]
        split
        next => exact (queuedPayload_pieceFrames s.cfg sid _ _ _).trans (if_neg hsid)
        next => rfl
    have hpending : (drain s).pending = pass.filterMap GateOutcome.waits := h.waits
    rw [hqueue, hpending, List.append_assoc,
      sentBytes_append_pendingBytes (fun o ho => (h.each o ho).1) h.ordered, h.writes]
  · have hcfg : (drain s).cfg = s.cfg := by rw [drain_eq]
    obtain hbefore | hstuck | hheld := drain_allHeld s before w after hws
    · exact .inl hbefore
    · cases hstuck
    · rw [Held, hcfg] at hheld
      exact .inr hheld

end Sys2Proof
end

section
/-! PROOF. The epilogue (R316): what it leaves, that a second run does nothing (O36), and when it closes
the session (O37). -/

namespace Sys2Proof

open Machine

/-! ### A pump that answers has sent everything -/

theorem sendOrder_of_pumpTurns {s t : State} (hready : s.txReady = true)
    (h : pumpTurns (sendOrder s).length s = .next t) : sendOrder t = [] := by
  generalize horder : sendOrder s = fs at h
  induction fs generalizing s with
  | nil =>
    cases h
    exact horder
  | cons f fs ih =>
    obtain ⟨u, hnext, hrest⟩ := next_of_sendOrder horder
    have hu := next_eq hnext
    simp only [List.length_cons, pumpTurns, hready, if_true, hnext] at h
    obtain ⟨v, hv, hpump⟩ := andThen_eq_next.1 h
    obtain ⟨buf, -, rfl⟩ := txFrame_eq_next.1 hv
    exact ih (s := txItem (.txBytes buf) u) (by rw [hu]; exact hready) hrest hpump

/-- With the transport ready, nothing waits in the scheduler after the pump (R315). -/
theorem pump_empty {s t : State} (hready : s.txReady = true) (h : pump s = .next t) :
    t.urgent = [] ∧ t.tierq = emptyQueues := by
  rw [pump, ← length_sendOrder] at h
  exact sendOrder_eq_nil_iff.1 (sendOrder_of_pumpTurns hready h)

/-- With nothing to send, or nowhere to send it, the pump does nothing. -/
theorem pump_of_idle {s : State} (h : s.txReady = true → s.urgent = [] ∧ s.tierq = emptyQueues) :
    pump s = .next s := by
  cases hready : s.txReady with
  | false => exact pumpTurns_of_blocked hready _
  | true => rw [pump, ← length_sendOrder, sendOrder_eq_nil_iff.2 (h hready)]; rfl

/-! ### The tear-down -/

theorem nothingLeft_iff {s : State} : nothingLeft s = true ↔
    s.streams = [] ∧ s.urgent = [] ∧ s.tierq = emptyQueues ∧ s.pending = [] := by
  have hqueues : s.tierq.toList.all List.isEmpty = true ↔ s.tierq = emptyQueues := by
    rw [List.all_eq_true, ← Vector.toList_inj, emptyQueues_toList, List.eq_replicate_iff]
    simp
  simp only [nothingLeft, Bool.and_eq_true, List.isEmpty_iff, hqueues, and_assoc]

theorem tearDownIfDone_of_not {s : State} (h : ¬ (s.mode = .goingAway ∧ nothingLeft s = true)) :
    tearDownIfDone s = s := if_neg h

theorem tearDownIfDone_of_done {s : State} (hmode : s.mode = .goingAway)
    (hleft : nothingLeft s = true) :
    tearDownIfDone s = { txItem .txClose s with mode := .closed } := if_pos ⟨hmode, hleft⟩

/-! ### The epilogue in its three parts -/

theorem epilogue_of_live {s t : State} (hlive : ended s = false) (h : epilogue s = .next t) :
    ∃ v, pump (drain s) = .next v ∧ t = tearDownIfDone v := by
  rw [epilogue, hlive, if_neg Bool.false_ne_true] at h
  obtain ⟨v, hv, ht⟩ := andThen_eq_next.1 h
  cases ht
  exact ⟨v, hv, rfl⟩

/-- The epilogue of a session that is not over empties the scheduler if the transport is ready. -/
theorem epilogue_empty {s t : State} (hlive : ended s = false) (h : epilogue s = .next t)
    (hready : t.txReady = true) : t.urgent = [] ∧ t.tierq = emptyQueues := by
  obtain ⟨v, hv, rfl⟩ := epilogue_of_live hlive h
  have hv' : v.urgent = [] ∧ v.tierq = emptyQueues := by
    refine pump_empty ?_ hv
    rw [tearDownIfDone_eq, pumpTurns_eq hv] at hready
    exact hready
  rw [tearDownIfDone_eq]
  exact hv'

/-- The epilogue of a session that is not over leaves only writes that are held back. -/
theorem epilogue_allHeld {s t : State} (hlive : ended s = false) (h : epilogue s = .next t) :
    AllHeld t.pending [] t := by
  obtain ⟨v, hv, rfl⟩ := epilogue_of_live hlive h
  rw [tearDownIfDone_eq, pumpTurns_eq hv]
  exact drain_allHeld s

/-! ### A second run -/

theorem drainWrite_of_held {sid : StreamId} {rem : Bytes} {s : State} (h : Held sid rem s) (turns : Nat)
    (fin : Bool) : drainWrite turns sid rem fin s = (s, some rem) := by
  cases hget : tableGet s.streams sid with
  | none => exact drainWrite_of_unknown hget _ _ _
  | some r =>
    rw [Held, avail_of_get hget] at h
    obtain ⟨a, ha, hcredit⟩ := h.resolve_left nofun
    exact drainWrite_of_noCredit hget (Option.some_inj.1 ha) hcredit _ _

/-- The walk changes nothing when every write is held back. -/
theorem drainFrom_of_allHeld {ws : List PendingWrite} {stuck : List StreamId} {s : State}
    (h : AllHeld ws stuck s) : drainFrom ws stuck s = (s, ws) := by
  induction ws generalizing stuck with
  | nil => rfl
  | cons w rest ih =>
    obtain ⟨hw, hrest⟩ := allHeld_cons.1 h
    by_cases hstuck : w.sid ∈ stuck
    case pos =>
      have hsame : AllHeld rest stuck s := fun before v after hws => by
        obtain hbefore | hmem | hheld := hrest before v after hws
        · exact .inl hbefore
        · exact .inr (.inl ((List.mem_cons.1 hmem).elim (fun heq => heq ▸ hstuck) id))
        · exact .inr (.inr hheld)
      rw [drainFrom_of_stuck hstuck, ih hsame]
    case neg =>
      rw [drainFrom_of_left hstuck rest (drainWrite_of_held (hw.resolve_left hstuck) _ _), ih hrest]

theorem drain_of_allHeld {s : State} (h : AllHeld s.pending [] s) : drain s = s := by
  rw [drain, drainFrom_of_allHeld h]

/-- Settles O36. What is left after the first run is held back, and the scheduler is empty or the
transport blocked. -/
theorem epilogueIdempotent : Obligations.EpilogueIdempotent := by
  unfold Obligations.EpilogueIdempotent
  intro s t h
  cases hlive : ended s with
  | true =>
    rw [epilogue_of_ended hlive] at h
    cases h
    exact epilogue_of_ended hlive
  | false =>
    cases hover : ended t with
    | true => exact epilogue_of_ended hover
    | false =>
      have hdrain := drain_of_allHeld (epilogue_allHeld hlive h)
      have hpump := pump_of_idle (epilogue_empty hlive h)
      obtain ⟨v, -, rfl⟩ := epilogue_of_live hlive h
      have hopen : ¬ (v.mode = .goingAway ∧ nothingLeft v = true) := fun ⟨hmode, hleft⟩ => by
        rw [tearDownIfDone_of_done hmode hleft] at hover
        cases hover
      rw [epilogue, hover, if_neg Bool.false_ne_true, hdrain, hpump, andThen_next,
        tearDownIfDone_of_not hopen, tearDownIfDone_of_not hopen]

/-! ### The graceful tear-down -/

/-- What the tear-down makes of a session whose peer has gone away (R316). -/
theorem tearDownIfDone_goingAway {v : State} (hmode : v.mode = .goingAway) :
    (tearDownIfDone v).goaway = v.goaway ∧
      ((tearDownIfDone v).mode = .closed ∨ (tearDownIfDone v).mode = .goingAway) ∧
      ((tearDownIfDone v).mode = .closed ↔ (tearDownIfDone v).streams = [] ∧
        (tearDownIfDone v).urgent = [] ∧ (tearDownIfDone v).tierq = emptyQueues ∧
        (tearDownIfDone v).pending = []) ∧
      ((tearDownIfDone v).mode = .closed → ∃ items, (tearDownIfDone v).tx = items ++ [.txClose]) := by
  by_cases hleft : nothingLeft v = true
  · rw [tearDownIfDone_of_done hmode hleft]
    exact ⟨rfl, .inl rfl, iff_of_true rfl (nothingLeft_iff.1 hleft), fun _ => ⟨_, rfl⟩⟩
  · rw [tearDownIfDone_of_not (fun h => hleft h.2), hmode]
    exact ⟨rfl, .inr rfl, iff_of_false nofun (fun h => hleft (nothingLeft_iff.2 h)), nofun⟩

/-- Settles O37. Neither DRAIN nor the pump touches the mode and the GOAWAY status, so the tear-down
decides. -/
theorem gracefulTearDown : Obligations.GracefulTearDown := by
  unfold Obligations.GracefulTearDown
  intro s t h
  have hkept (hlive : ended s = false) :
      ∃ v, v.mode = s.mode ∧ v.goaway = s.goaway ∧ t = tearDownIfDone v := by
    obtain ⟨v, hv, rfl⟩ := epilogue_of_live hlive h
    refine ⟨v, ?_, ?_, rfl⟩ <;> rw [pumpTurns_eq hv, drain_eq]
  refine ⟨fun hgoing => ?_, fun hactive => ?_, fun hover => ?_⟩
  · obtain ⟨v, hmode, hgoaway, rfl⟩ := hkept (ended_eq_false (by simp [hgoing]) (by simp [hgoing]))
    rw [← hgoaway]
    exact tearDownIfDone_goingAway (hmode.trans hgoing)
  · obtain ⟨v, hmode, -, rfl⟩ := hkept (ended_eq_false (by simp [hactive]) (by simp [hactive]))
    rw [tearDownIfDone_of_not (fun hgoing => by simp [hmode, hactive] at hgoing), hmode, hactive]
  · rw [epilogue_of_ended (ended_iff.2 hover)] at h
    cases h
    rfl

end Sys2Proof
end

section
/-! PROOF. What a received frame can do (R262 to R271), said once: it makes a run of changes, each of
which is sound on its own, and may end in the session-fatal procedure (`exec_ends`). That every frame
answers (O25), what it leaves alone (O26) and which stream it touches (O27) are read off the changes. -/

namespace Sys2Proof

open Machine

/-! ### The frames this side queues become bytes (R178) -/

/-- A control frame of the session's version, without flags and without a tier, becomes bytes. -/
theorem encodable_of_control {c : Cfg} {f : Instr} {k : ControlType}
    (hver : f.ver? = some (wireVersion c)) (hk : f.controlType? = some k) (hflags : f.flags = 0) (hlen : f.plen ≤ maxPayload)
    (hpay : ∀ r, ∃ payload, encodePayload c.build r f = some payload) : Encodable c f := by
  obtain ⟨r, hr⟩ := Option.isSome_iff_exists.1 (revisionOf_versionTag_isSome c.params c.version)
  obtain ⟨payload, hpayload⟩ := hpay r
  have hlegal : flagsLegal c.params f = true := by
    rw [flagsLegal, hflags]
    exact withinMask_zero _
  have hr' : revisionOf c.params (wireVersion c) = some r := hr
  have henc := encode_control c.build hlegal hlen hver hk
  rw [hr', Option.elim_some, hpayload, Option.elim_some] at henc
  exact ⟨_, henc⟩

theorem encodable_rstStream (c : Cfg) (sid : StreamId) (status : Word32) :
    Encodable c (.rstStream (wireVersion c) 0 sid status) :=
  encodable_of_control rfl rfl rfl (by simp [Instr.plen, maxPayload]) fun _ => ⟨_, rfl⟩

theorem encodable_windowUpdate (c : Cfg) (sid : StreamId) (delta : BitVec 31) :
    Encodable c (.windowUpdate (wireVersion c) 0 sid delta) :=
  encodable_of_control rfl rfl rfl (by simp [Instr.plen, maxPayload]) fun _ => ⟨_, rfl⟩

theorem encodable_ping (c : Cfg) (id : Word32) : Encodable c (.ping (wireVersion c) 0 id) :=
  encodable_of_control rfl rfl rfl (by simp [Instr.plen, maxPayload]) fun _ => ⟨_, rfl⟩

/-! ### The changes -/

/-- This side may still send on the stream (R196). -/
def CanSend (r : Stream) : Prop := r.state = .opened ∨ r.state = .halfClosedRemote

/-- A record as the table invariant wants it: open or half closed (R38). -/
def Live (r : Stream) : Prop :=
  r.state = .opened ∨ r.state = .halfClosedLocal ∨ r.state = .halfClosedRemote

/-- A record rewritten so that nothing that was true of its stream is lost: its tier, what this side may
do, and, for a live stream, its windows. -/
structure RecordKept (r r' : Stream) : Prop where
  tier : r'.tier = r.tier
  canSend : CanSend r → CanSend r'
  marked : r.localFinQueued = true → r'.localFinQueued = true
  live : Live r → Live r'
  windows : Live r → ∀ c initial, StreamWindows c initial r → StreamWindows c initial r'

theorem RecordKept.refl (r : Stream) : RecordKept r r :=
  ⟨rfl, id, id, id, fun _ _ _ h => h⟩

/-- A stream the peer has finished. -/
theorem recordKept_halfClosedRemote (r : Stream) : RecordKept r { r with state := .halfClosedRemote } :=
  ⟨rfl, fun _ => .inr rfl, id, fun _ => .inr (.inr rfl), fun _ _ _ h =>
    ⟨h.sendAbove, h.sendBelow, h.recvAbove, h.recvBelow, nofun⟩⟩

/-- A stream the peer has finished with a DATA frame, whose bytes stay debited (R242). -/
theorem recordKept_lastData {r : Stream} {n : Int} (hn : 0 ≤ n) (hfits : n ≤ r.recvWindow) :
    RecordKept r { r with state := .halfClosedRemote, recvWindow := r.recvWindow - n } where
  tier := rfl
  canSend := fun _ => .inr rfl
  marked := id
  live := fun _ => .inr (.inr rfl)
  windows := fun _ _ _ h =>
    { sendAbove := h.sendAbove
      sendBelow := h.sendBelow
      recvAbove := Int.sub_nonneg_of_le hfits
      recvBelow := (Int.sub_le_self _ hn).trans h.recvBelow
      recvFull := nofun }

/-- A record that is not live is no concern of the invariants until it is opened. -/
theorem recordKept_of_idle {r : Stream} (hidle : r.state = .idle) (st : StreamState) :
    RecordKept r { r with state := st } :=
  have hlive : ¬ Live r := by simp [Live, hidle]
  ⟨rfl, fun h => by simp [CanSend, hidle] at h, id, fun h => absurd h hlive, fun h => absurd h hlive⟩

/-- What a received frame `f` does to the state, one change at a time. -/
inductive RxChange (f : Instr) (s : State) : State → Prop
  /-- An event that reports no stream's end. -/
  | tell (ev : Event) (hev : ∀ sid, closes sid ev = false) : RxChange f s (emit ev s)
  /-- An urgent frame in answer (R223). -/
  | reply (g : Instr) (hg : Encodable s.cfg g) : RxChange f s (enqueueUrgent g s)
  /-- A frame queued on the stream the frame is about (R221). -/
  | queue (sid : StreamId) (g : Instr) (hf : streamOf f = some sid) (hg : Encodable s.cfg g) :
      RxChange f s (enqueue sid g s)
  /-- The record of the stream the frame is about. -/
  | record (sid : StreamId) (r r' : Stream) (hf : streamOf f = some sid)
      (hget : tableGet s.streams sid = some r) (hkept : RecordKept r r') :
      RxChange f s (putStream sid r' s)
  /-- The stream the frame is about goes, with all that waits for it (R343, R271). -/
  | remove (sid : StreamId) (reason : CloseReason) (hf : streamOf f = some sid)
      (hin : (tableGet s.streams sid).isSome = true) :
      RxChange f s (emit (.onStreamClosed sid reason) (withoutStreams [sid] s))
  /-- A GOAWAY aborts a stream (R270). -/
  | abort (sid : StreamId) (hf : f.controlType? = some .goaway) :
      RxChange f s (emit (.onStreamClosed sid .aborted) (withoutStreams [sid] s))
  /-- The peer finishes a stream this side has finished (R197). -/
  | finish (sid : StreamId) (r : Stream) (hf : streamOf f = some sid)
      (hget : tableGet s.streams sid = some r) (hdone : ¬ CanSend r) :
      RxChange f s (emit (.onStreamClosed sid .normal) (closeStream sid s))
  /-- The peer opens a stream (R263). -/
  | openPeer (sid : StreamId) (tier : Fin 8) (hf : streamOf f = some sid)
      (hsyn : f.controlType? = some .synStream) (hver : f.ver? = some (wireVersion s.cfg))
      (htier : f.tier? = some tier) (hsid : sid ≠ 0) (hpeer : isLocal s.cfg.role sid = false)
      (hunseen : s.lastPeerId.toNat < sid.toNat) (hget : tableGet s.streams sid = none) :
      RxChange f s (acceptPeer sid tier s)
  /-- A stream ID of the peer is seen (R23, R24). -/
  | seen (sid good : StreamId) (hsyn : f.controlType? = some .synStream)
      (hunseen : s.lastPeerId.toNat ≤ sid.toNat) (hgood : good = s.lastGoodPeerId ∨ good = sid) :
      RxChange f s { s with lastPeerId := sid, lastGoodPeerId := good }
  /-- Credit for the session (R238). -/
  | sessionCredit (n : Nat) (hf : f.controlType? = some .windowUpdate)
      (hfits : s.sessionSendWindow + n ≤ maxWindow) :
      RxChange f s { s with sessionSendWindow := s.sessionSendWindow + n }
  /-- The peer's limit on streams (R267). -/
  | limit (v : Word32) (hf : f.controlType? = some .settings) :
      RxChange f s { s with peerMaxStreams := some v }
  /-- The initial window (R240). -/
  | initialWindow (v : Word32) (t : State) (hf : f.controlType? = some .settings)
      (hadjust : adjustInitialWindow v s = .ok t) : RxChange f s t
  /-- The peer goes away (R270). -/
  | goingAway (lastGood : StreamId) (hf : f.controlType? = some .goaway) :
      RxChange f s { s with goaway := .received lastGood, mode := .goingAway }

/-- A run of changes. -/
abbrev RxRun (f : Instr) : State → State → Prop := Relation.ReflTransGen (RxChange f)

/-- An outcome after a run of changes: the state reached, or the session-fatal procedure there. -/
def RxEnds (f : Instr) (s : State) (o : Outcome) : Prop :=
  ∃ u, RxRun f s u ∧ (o = .next u ∨ ∃ cause, o = .next (afterFatal cause u))

theorem RxRun.ends {f : Instr} {s u : State} (h : RxRun f s u) : RxEnds f s (.next u) :=
  ⟨u, h, .inl rfl⟩

theorem RxChange.ends {f : Instr} {s u : State} (h : RxChange f s u) : RxEnds f s (.next u) :=
  ⟨u, .single h, .inl rfl⟩

theorem rxEnds_fatal {f : Instr} (cause : FatalCause) (s : State) : RxEnds f s (fatal cause s) :=
  ⟨s, .refl, .inr ⟨cause, fatal_eq cause s⟩⟩

theorem RxRun.trans_ends {f : Instr} {s u : State} {o : Outcome} (h : RxRun f s u)
    (ho : RxEnds f u o) : RxEnds f s o := by
  obtain ⟨v, hv, hend⟩ := ho
  exact ⟨v, h.trans hv, hend⟩

/-! ### The cells of R196 that a frame of the peer meets -/

theorem nextState_recvFrame {a b : StreamState} (h : nextState a .recvFrame = some b) : b = a := by
  cases a <;> cases h <;> rfl

theorem nextState_recvFin {a b : StreamState} (h : nextState a .recvFin = some b) :
    (a = .opened ∧ b = .halfClosedRemote) ∨ (a = .halfClosedLocal ∧ b = .closed) := by
  cases a <;> cases h <;> simp

theorem nextState_recvSyn {a b : StreamState} (h : nextState a .recvSyn = some b) : a = .idle := by
  cases a <;> cases h; rfl

/-! ### The runs of the stream frames -/

section

variable {f : Instr} {sid : StreamId} (hf : streamOf f = some sid)
include hf

theorem rxRun_streamError {s : State} (hin : (tableGet s.streams sid).isSome = true) (status : Word32)
    (reason : CloseReason) : RxRun f s (afterStreamError sid status reason s) :=
  .tail (.single (.reply _ (encodable_rstStream s.cfg sid status))) (.remove sid reason hf hin)

/-- FIN from the peer, whatever the stream's state (R264 to R266). -/
theorem rxRun_finishPeer (s : State) :
    RxRun f s (removeIfClosed sid (orElseSame s (transition sid .recvFin s))) := by
  obtain h | ⟨r, st, hget, hst, h⟩ := orElseSame_transition sid .recvFin s <;> rw [h]
  · obtain ⟨hsame, -⟩ | ⟨r, hget, hclosed, hremoved⟩ := removeIfClosed_cases sid s
    · rw [hsame]
    · rw [hremoved]
      exact .single (.finish sid r hf hget (by simp [CanSend, hclosed]))
  · obtain ⟨-, rfl⟩ | ⟨hlocal, rfl⟩ := nextState_recvFin hst
    · have hstay : removeIfClosed sid (putStream sid { r with state := .halfClosedRemote } s) =
          putStream sid { r with state := .halfClosedRemote } s := by
        simp [removeIfClosed]
      rw [hstay]
      exact .single (.record sid r _ hf hget (recordKept_halfClosedRemote r))
    · have hgone : removeIfClosed sid (putStream sid { r with state := .closed } s) =
          emit (.onStreamClosed sid .normal) (closeStream sid s) := by
        simp [removeIfClosed, closeStream, putStream, tableErase_put]
      rw [hgone]
      exact .single (.finish sid r hf hget (by simp [CanSend, hlocal]))

theorem rxRun_finishHeaders (flags : Byte) (s : State) : RxRun f s (finishHeaders sid flags s) := by
  unfold finishHeaders
  split
  next => exact .head (.tell _ fun _ => rfl) (rxRun_finishPeer hf _)
  next => exact .refl

theorem rxRun_receiveHeaders (flags : Byte) (hb : Bytes) (s : State) :
    RxRun f s (receiveHeaders sid flags hb s) := by
  unfold receiveHeaders
  cases hget : tableGet s.streams sid with
  | none =>
    rw [transition_unknown.2 hget]
    exact .single (.reply _ (encodable_rstStream s.cfg sid _))
  | some r =>
    rw [transition_of_get hget]
    cases hst : nextState r.state .recvFrame with
    | none =>
      simp only [streamError_eq]
      exact rxRun_streamError hf (by simp [hget]) _ _
    | some st =>
      obtain rfl := nextState_recvFrame hst
      exact .head (.record sid r _ hf hget (.refl r))
        (.head (.tell _ fun _ => rfl) (rxRun_finishHeaders hf flags _))

theorem rxRun_receiveRst (status : Word32) (s : State) : RxRun f s (receiveRst sid status s) := by
  cases hget : tableGet s.streams sid with
  | none => rw [receiveRst_of_unknown hget]
  | some r =>
    rw [receiveRst_of_isSome (by simp [hget]), closeStream_purge_transition]
    exact .single (.remove sid _ hf (by simp [hget]))

end

/-! ### DATA -/

/-- The credit of the session goes back in the urgent queue when there is any (R242). -/
theorem rxRun_creditSession {f : Instr} (n : Nat) (s : State) :
    RxRun f s { s with urgent := (creditSession n s).urgent } := by
  by_cases hn : n = 0
  · subst hn
    have hsame : { s with urgent := (creditSession 0 s).urgent } = s := by simp [creditSession]
    rw [hsame]
  · have hwait : { s with urgent := (creditSession n s).urgent } =
        enqueueUrgent (.windowUpdate (wireVersion s.cfg) 0 0 (BitVec.ofNat 31 n)) s := by
      simp [creditSession, enqueueUrgent, hn]
    rw [hwait]
    exact .single (.reply _ (encodable_windowUpdate s.cfg _ _))

section

variable {f : Instr} {sid : StreamId} (hf : streamOf f = some sid) {s : State} {r : Stream}
  (hget : tableGet s.streams sid = some r) (payload : Bytes)
include hf hget

/-- Without FIN every window ends where it was (R245 (3)). -/
theorem rxRun_data_noFin (hlive : r.state = .opened ∨ r.state = .halfClosedLocal) :
    RxRun f s (returnCredit sid payload.length (deliverData sid r payload false s)) := by
  have htold : RxRun f s (emit (.onData sid payload false) (putStream sid r s)) :=
    .tail (.single (.record sid r r hf hget (.refl r))) (.tell _ fun _ => rfl)
  by_cases hn : payload.length = 0
  · have hsame : returnCredit sid payload.length (deliverData sid r payload false s) =
        emit (.onData sid payload false) (putStream sid r s) := by
      simp [hn, returnCredit_zero, deliverData, debitRecv, emit, putStream]
    rw [hsame]
    exact htold
  · have hqueued : returnCredit sid payload.length (deliverData sid r payload false s) =
        enqueue sid (.windowUpdate (wireVersion s.cfg) 0 sid (BitVec.ofNat 31 payload.length))
          (enqueueUrgent (.windowUpdate (wireVersion s.cfg) 0 0 (BitVec.ofNat 31 payload.length))
            (emit (.onData sid payload false) (putStream sid r s))) := by
      rw [returnCredit_of_live hn (tableGet_deliverData sid r payload false s) hlive,
        enqueue_of_get (r := r) (by simp)]
      simp [deliverData, debitRecv, creditSession, setQueue, putStream, emit, enqueueUrgent, hn,
        tablePut_put]
    rw [hqueued]
    exact .tail (.tail htold (.reply _ (encodable_windowUpdate s.cfg _ _)))
      (.queue sid _ hf (encodable_windowUpdate s.cfg _ _))

/-- With FIN on an open stream: the stream's credit does not go back, the session's does. -/
theorem rxRun_data_finOpened (hopened : r.state = .opened) (hfits : payload.length ≤ r.recvWindow) :
    RxRun f s (returnCredit sid payload.length (removeIfClosed sid
      (orElseSame (deliverData sid r payload true s)
        (transition sid .recvFin (deliverData sid r payload true s))))) := by
  rw [finishPeer_of_opened (tableGet_deliverData sid r payload true s) hopened,
    returnCredit_of_not_live (by simp)]
  have hrun : RxRun f s (emit (.onData sid payload true) (putStream sid
      { r with state := .halfClosedRemote, recvWindow := r.recvWindow - payload.length } s)) :=
    .tail (.single (.record sid r _ hf hget
      (recordKept_lastData (Int.natCast_nonneg _) hfits))) (.tell _ fun _ => rfl)
  convert hrun.trans (rxRun_creditSession payload.length _) using 1
  simp [creditSession, deliverData, debitRecv, putStream, emit, tablePut_put]

/-- With FIN on a stream this side has finished, the stream goes. -/
theorem rxRun_data_finLocal (hlocal : r.state = .halfClosedLocal) :
    RxRun f s (returnCredit sid payload.length (removeIfClosed sid
      (orElseSame (deliverData sid r payload true s)
        (transition sid .recvFin (deliverData sid r payload true s))))) := by
  rw [finishPeer_of_halfClosedLocal (tableGet_deliverData sid r payload true s) hlocal,
    returnCredit_of_not_live (by simp)]
  have hrun : RxRun f s (emit (.onStreamClosed sid .normal) (closeStream sid
      (emit (.onData sid payload true) s))) :=
    .tail (.single (.tell _ fun _ => rfl)) (.finish sid r hf hget (by simp [CanSend, hlocal]))
  convert hrun.trans (rxRun_creditSession payload.length _) using 1
  simp [creditSession, deliverData, debitRecv, putStream, closeStream, emit, tableErase_put]

end

theorem rxEnds_receiveData {f : Instr} {sid : StreamId} (hf : streamOf f = some sid) (flags : Byte)
    (payload : Bytes) (s : State) : RxEnds f s (receiveData sid flags payload s) := by
  cases hget : tableGet s.streams sid with
  | none =>
    rw [receiveData_of_unknown flags payload hget]
    exact RxChange.ends (.reply _ (encodable_rstStream s.cfg sid _))
  | some r =>
    by_cases hlive : r.state = .opened ∨ r.state = .halfClosedLocal
    case neg =>
      obtain ⟨hopened, hlocal⟩ := not_or.1 hlive
      rw [receiveData_of_not_live flags payload hget hopened hlocal]
      exact (rxRun_streamError hf (by simp [hget]) _ _).ends
    case pos =>
      have hframe : transition sid .recvFrame s = .ok (putStream sid r s) :=
        transition_eq_ok.2 ⟨r, r.state, hget, nextState_recvFrame_of_live hlive, rfl⟩
      have hget' : tableGet (putStream sid r s).streams sid = some r := tableGet_put_self _ _ _
      have hdeliver (fin : Bool) :
          emit (.onData sid payload fin) (debitRecv sid r payload.length (putStream sid r s)) =
            deliverData sid r payload fin s := by
        simp [deliverData, debitRecv, putStream, tablePut_put]
      unfold receiveData
      simp only [hframe, hget']
      split
      next =>
        exact RxRun.trans_ends (.single (.record sid r r hf hget (.refl r))) (rxEnds_fatal _ _)
      next hfits =>
        obtain ⟨hstream, -⟩ := not_or.1 hfits
        by_cases hfin : finSet s.cfg.params flags = true
        case pos =>
          have hcfg : (debitRecv sid r payload.length (putStream sid r s)).cfg = s.cfg := rfl
          simp only [hcfg, hfin, if_true, hdeliver]
          obtain hopened | hlocal := hlive
          · exact (rxRun_data_finOpened hf hget payload hopened (not_lt.1 hstream)).ends
          · exact (rxRun_data_finLocal hf hget payload hlocal).ends
        case neg =>
          have hcfg : (debitRecv sid r payload.length (putStream sid r s)).cfg = s.cfg := rfl
          simp only [Bool.not_eq_true] at hfin
          simp only [hcfg, hfin, Bool.false_eq_true, if_false, hdeliver]
          exact (rxRun_data_noFin hf hget payload hlive).ends

/-! ### SYN_STREAM -/

section

variable {f : Instr} {sid : StreamId} {tier : Fin 8} {s : State} (hf : streamOf f = some sid)
  (hsyn : f.controlType? = some .synStream) (hver : f.ver? = some (wireVersion s.cfg))
  (htier : f.tier? = some tier) (hsid : sid ≠ 0) (hpeer : isLocal s.cfg.role sid = false)
  (hunseen : s.lastPeerId.toNat < sid.toNat)
include hf hsyn hver htier hsid hpeer hunseen

/-- The peer's new stream is opened; an ID that is in the table already, which R38 excludes, is only
noted. -/
theorem rxRun_openPeer :
    RxRun f s { orElseSame (orElseSame { s with lastPeerId := sid }
          (openStream sid tier .peers { s with lastPeerId := sid }))
        (transition sid .recvSyn (orElseSame { s with lastPeerId := sid }
          (openStream sid tier .peers { s with lastPeerId := sid }))) with lastGoodPeerId := sid } := by
  cases hget : tableGet s.streams sid with
  | none =>
    rw [openPeer_eq (s := { s with lastPeerId := sid }) hsid hpeer hget tier]
    exact .single (.openPeer sid tier hf hsyn hver htier hsid hpeer hunseen hget)
  | some r =>
    have hseen : RxRun f s { s with lastPeerId := sid } :=
      .single (.seen sid s.lastGoodPeerId hsyn hunseen.le (.inl rfl))
    have htaken : orElseSame { s with lastPeerId := sid }
        (openStream sid tier .peers { s with lastPeerId := sid }) = { s with lastPeerId := sid } := by
      obtain hopen | hsame := orElseSame_cases { s with lastPeerId := sid }
        (openStream sid tier .peers { s with lastPeerId := sid })
      · obtain ⟨-, -, hnone, -⟩ := openStream_eq_ok.1 hopen
        rw [hget] at hnone
        cases hnone
      · exact hsame
    rw [htaken]
    obtain h | ⟨q, st, hq, hst, h⟩ := orElseSame_transition sid .recvSyn { s with lastPeerId := sid } <;>
      rw [h]
    · exact .tail hseen (.seen sid sid hsyn le_rfl (.inr rfl))
    · exact .tail (.tail hseen
          (.record sid q _ hf hq (recordKept_of_idle (nextState_recvSyn hst) st)))
        (.seen sid sid hsyn le_rfl (.inr rfl))

end

theorem rxEnds_receiveSynStream {f : Instr} {sid : StreamId} {tier : Fin 8} {s : State}
    (hf : streamOf f = some sid) (hsyn : f.controlType? = some .synStream)
    (hver : f.ver? = some (wireVersion s.cfg)) (htier : f.tier? = some tier) (hsid : sid ≠ 0)
    (flags : Byte) (hb : Bytes) : RxEnds f s (receiveSynStream sid flags tier hb s) := by
  unfold receiveSynStream
  simp only []
  split
  next =>
    split
    next hin =>
      rw [streamError_eq]
      exact (rxRun_streamError hf hin _ _).ends
    next => exact RxChange.ends (.reply _ (encodable_rstStream s.cfg sid _))
  next hlocal =>
    have hpeer : isLocal s.cfg.role sid = false := by simpa using hlocal
    split
    next => exact rxEnds_fatal _ _
    next hseen =>
      have hunseen := not_le.1 hseen
      split
      next =>
        exact RxRun.ends (.tail (.single (.seen sid s.lastGoodPeerId hsyn hunseen.le (.inl rfl)))
          (.reply _ (encodable_rstStream s.cfg sid _)))
      next =>
        exact RxRun.ends ((rxRun_openPeer hf hsyn hver htier hsid hpeer hunseen).trans
          (.head (.tell _ fun _ => rfl) (rxRun_finishHeaders hf flags _)))

/-! ### The session frames -/

theorem rxEnds_applySettings {f : Instr} (hf : f.controlType? = some .settings)
    (entries : List SettingsEntry) (s : State) : RxEnds f s (applySettings entries s) := by
  induction entries generalizing s with
  | nil => exact RxRun.ends .refl
  | cons e rest ih =>
    unfold applySettings
    split
    next => exact RxRun.trans_ends (.single (.limit e.value hf)) (ih _)
    next =>
      split
      next =>
        cases hadjust : adjustInitialWindow e.value s with
        | error cause => exact rxEnds_fatal cause s
        | ok u => exact RxRun.trans_ends (.single (.initialWindow e.value u hf hadjust)) (ih u)
      next => exact ih s

theorem recordKept_credit {r : Stream} {n : Nat} (hfits : r.sendWindow + n ≤ maxWindow) :
    RecordKept r { r with sendWindow := r.sendWindow + n } where
  tier := rfl
  canSend := id
  marked := id
  live := id
  windows := fun _ c initial h =>
    { sendAbove := by
        have := h.sendAbove
        simp only
        omega
      sendBelow := hfits
      recvAbove := h.recvAbove
      recvBelow := h.recvBelow
      recvFull := h.recvFull }

theorem rxEnds_receiveWindowUpdate {f : Instr} {sid : StreamId} (hf : streamOf f = some sid)
    (hkind : f.controlType? = some .windowUpdate) (delta : BitVec 31) (s : State) :
    RxEnds f s (receiveWindowUpdate sid delta s) := by
  unfold receiveWindowUpdate
  cases hcredit : replenish sid delta.toNat s with
  | some t =>
    obtain ⟨-, hfits, rfl⟩ | ⟨-, -, rfl⟩ | ⟨-, r, hget, hfits, rfl⟩ := replenish_eq_some.1 hcredit
    · exact RxChange.ends (.sessionCredit _ hkind hfits)
    · exact RxRun.ends .refl
    · exact RxChange.ends (.record sid r _ hf hget (recordKept_credit hfits))
  | none =>
    dsimp only
    split
    next => exact rxEnds_fatal _ _
    next hsid =>
      obtain ⟨hzero, -⟩ | ⟨-, r, hget, -⟩ := replenish_eq_none.1 hcredit
      · exact absurd hzero hsid
      · rw [streamError_eq]
        exact (rxRun_streamError hf (by simp [hget]) _ _).ends

theorem rxRun_abortAbove {f : Instr} (hf : f.controlType? = some .goaway) (lastGood : StreamId)
    (sids : List StreamId) (s : State) : RxRun f s (abortAbove lastGood sids s) := by
  induction sids generalizing s with
  | nil => exact .refl
  | cons sid rest ih =>
    unfold abortAbove
    split
    next =>
      rw [abortStream_eq]
      exact .head (.abort sid hf) (ih _)
    next => exact ih s

theorem rxRun_receiveGoaway {f : Instr} (hf : f.controlType? = some .goaway) (lastGood : StreamId)
    (status : Word32) (s : State) : RxRun f s (receiveGoaway lastGood status s) :=
  .head (.goingAway lastGood hf) (.head (.tell _ fun _ => rfl) (rxRun_abortAbove hf lastGood _ _))

/-! ### Every frame -/

theorem rxEnds_versionChecked {f : Instr} {ver : VersionTag} {s : State} {k : Outcome}
    (h : ver = wireVersion s.cfg → RxEnds f s k) : RxEnds f s (versionChecked ver s k) := by
  unfold versionChecked
  split
  next => exact rxEnds_fatal _ _
  next hver => exact h (not_not.1 hver)

theorem rxEnds_streamNamed {f : Instr} {sid : StreamId} {s : State} {k : Outcome}
    (h : sid ≠ 0 → RxEnds f s k) : RxEnds f s (streamNamed sid s k) := by
  unfold streamNamed
  split
  next => exact rxEnds_fatal _ _
  next hsid => exact h hsid

/-- What executing a received frame does (R262). -/
theorem exec_ends (f : Instr) (s : State) : RxEnds f s (exec f s) := by
  cases f with
  | data sid flags payload =>
    exact rxEnds_streamNamed fun _ => rxEnds_receiveData rfl flags payload s
  | synStream ver flags sid assoc tier hb =>
    exact rxEnds_versionChecked fun hver => rxEnds_streamNamed fun hsid =>
      rxEnds_receiveSynStream (f := .synStream ver flags sid assoc tier hb) rfl rfl
        (congrArg some hver) rfl hsid flags hb
  | synReply ver flags sid hb =>
    exact rxEnds_versionChecked fun _ => rxEnds_streamNamed fun _ =>
      (rxRun_receiveHeaders rfl flags hb s).ends
  | rstStream ver flags sid status =>
    exact rxEnds_versionChecked fun _ => rxEnds_streamNamed fun _ => (rxRun_receiveRst rfl status s).ends
  | settings ver flags entries =>
    exact rxEnds_versionChecked fun _ => rxEnds_applySettings rfl entries s
  | ping ver flags id =>
    exact rxEnds_versionChecked fun _ => RxChange.ends (.reply _ (encodable_ping s.cfg id))
  | goaway ver flags lastGood status =>
    exact rxEnds_versionChecked fun _ => (rxRun_receiveGoaway rfl lastGood status s).ends
  | headers ver flags sid tier hb =>
    exact rxEnds_versionChecked fun _ => rxEnds_streamNamed fun _ =>
      (rxRun_receiveHeaders rfl flags hb s).ends
  | windowUpdate ver flags sid delta =>
    exact rxEnds_versionChecked fun _ => rxEnds_receiveWindowUpdate rfl rfl delta s

/-- Settles O25. -/
theorem everyFrameAnswers : Obligations.EveryFrameAnswers := by
  unfold Obligations.EveryFrameAnswers
  intro f s
  obtain ⟨u, -, h | ⟨cause, h⟩⟩ := exec_ends f s
  · exact ⟨u, h⟩
  · exact ⟨_, h⟩

end Sys2Proof
end

section
/-! PROOF. What a received frame leaves alone: the frame of `exec` (O26), the other streams (O27) and the
bytes behind it in the receive buffer (O14). -/

namespace Sys2Proof

open Machine

/-! ### The frame of one change -/

/-- What no change by a received frame touches, and what only one kind of frame touches. -/
structure RxFrame (f : Instr) (s t : State) : Prop where
  cfg : t.cfg = s.cfg
  nextStreamId : t.nextStreamId = s.nextStreamId
  txReady : t.txReady = s.txReady
  rxBuf : t.rxBuf = s.rxBuf
  rxOffset : t.rxOffset = s.rxOffset
  sessionRecvWindow : t.sessionRecvWindow = s.sessionRecvWindow
  phase : t.phase = s.phase
  inbox : t.inbox = s.inbox
  tx : t.tx = s.tx
  trace : t.trace = s.trace
  earlier : t.earlier = s.earlier
  draws : t.draws = s.draws
  events : ∃ evs, t.events = s.events ++ evs
  peerIds : f.controlType? ≠ some .synStream →
    t.lastPeerId = s.lastPeerId ∧ t.lastGoodPeerId = s.lastGoodPeerId
  settings : f.controlType? ≠ some .settings →
    t.peerInitialWindow = s.peerInitialWindow ∧ t.peerMaxStreams = s.peerMaxStreams
  mode : f.controlType? ≠ some .goaway → t.mode = s.mode ∧ t.goaway = s.goaway
  stillOpen : s.mode ≠ .closed → t.mode ≠ .closed

theorem RxFrame.refl (f : Instr) (s : State) : RxFrame f s s :=
  ⟨rfl, rfl, rfl, rfl, rfl, rfl, rfl, rfl, rfl, rfl, rfl, rfl, ⟨[], (List.append_nil _).symm⟩,
    fun _ => ⟨rfl, rfl⟩, fun _ => ⟨rfl, rfl⟩, fun _ => ⟨rfl, rfl⟩, id⟩

theorem RxFrame.trans {f : Instr} {s t u : State} (h : RxFrame f s t) (h' : RxFrame f t u) :
    RxFrame f s u where
  cfg := h'.cfg.trans h.cfg
  nextStreamId := h'.nextStreamId.trans h.nextStreamId
  txReady := h'.txReady.trans h.txReady
  rxBuf := h'.rxBuf.trans h.rxBuf
  rxOffset := h'.rxOffset.trans h.rxOffset
  sessionRecvWindow := h'.sessionRecvWindow.trans h.sessionRecvWindow
  phase := h'.phase.trans h.phase
  inbox := h'.inbox.trans h.inbox
  tx := h'.tx.trans h.tx
  trace := h'.trace.trans h.trace
  earlier := h'.earlier.trans h.earlier
  draws := h'.draws.trans h.draws
  events := by
    obtain ⟨evs, hevs⟩ := h.events
    obtain ⟨evs', hevs'⟩ := h'.events
    exact ⟨evs ++ evs', by rw [hevs', hevs, List.append_assoc]⟩
  peerIds := fun hk =>
    ⟨(h'.peerIds hk).1.trans (h.peerIds hk).1, (h'.peerIds hk).2.trans (h.peerIds hk).2⟩
  settings := fun hk =>
    ⟨(h'.settings hk).1.trans (h.settings hk).1, (h'.settings hk).2.trans (h.settings hk).2⟩
  mode := fun hk => ⟨(h'.mode hk).1.trans (h.mode hk).1, (h'.mode hk).2.trans (h.mode hk).2⟩
  stillOpen := fun hs => h'.stillOpen (h.stillOpen hs)

/-- The fields of the stream table, the scheduler, the pending writes, the session's credit and the
events: those every kind of frame may change. -/
theorem rxFrame_of_streams (f : Instr) (s : State) (streams : StreamTable) (urgent : List Instr)
    (tierq : TierQueues) (pending : List PendingWrite) (window : Int) (evs : List Event) :
    RxFrame f s { s with
      streams := streams, urgent := urgent, tierq := tierq, pending := pending,
      sessionSendWindow := window, events := s.events ++ evs } :=
  ⟨rfl, rfl, rfl, rfl, rfl, rfl, rfl, rfl, rfl, rfl, rfl, rfl, ⟨evs, rfl⟩, fun _ => ⟨rfl, rfl⟩,
    fun _ => ⟨rfl, rfl⟩, fun _ => ⟨rfl, rfl⟩, id⟩

theorem RxChange.frame {f : Instr} {s t : State} (h : RxChange f s t) : RxFrame f s t := by
  have hrefl := RxFrame.refl f s
  cases h with
  | tell | remove | abort | finish => exact rxFrame_of_streams ..
  | reply | record | sessionCredit => exact { hrefl with }
  | queue =>
    rw [enqueue_eq]
    exact { hrefl with }
  | openPeer _ _ _ hsyn | seen _ _ hsyn => exact { hrefl with peerIds := fun h => absurd hsyn h }
  | limit _ hf => exact { hrefl with settings := fun h => absurd hf h }
  | initialWindow _ _ hf hadjust =>
    obtain ⟨_, -, rfl⟩ := adjustInitialWindow_eq_ok.1 hadjust
    exact { hrefl with settings := fun h => absurd hf h }
  | goingAway _ hf =>
    exact { hrefl with
      mode := fun h => absurd hf h
      stillOpen := fun _ => nofun }

theorem rxRun_frame {f : Instr} {s t : State} (h : RxRun f s t) : RxFrame f s t := by
  induction h with
  | refl => exact .refl f s
  | tail _ hchange ih => exact ih.trans hchange.frame

/-- Either the frame ran through, or it ended in the session-fatal procedure. -/
theorem exec_eq_next {f : Instr} {s t : State} (h : exec f s = .next t) :
    ∃ u, RxRun f s u ∧ (t = u ∨ ∃ cause, t = afterFatal cause u) := by
  obtain ⟨u, hu, hend | ⟨cause, hend⟩⟩ := exec_ends f s
  · exact ⟨u, hu, .inl (Host.Outcome.next.inj (h.symm.trans hend))⟩
  · exact ⟨u, hu, .inr ⟨cause, Host.Outcome.next.inj (h.symm.trans hend)⟩⟩

/-- Settles O26. The session-fatal procedure closes the session, so the clauses about an open one are
those of the run. -/
theorem execFrame : Obligations.ExecFrame := by
  unfold Obligations.ExecFrame
  intro f s t h
  obtain ⟨u, hu, hend⟩ := exec_eq_next h
  have hframe := rxRun_frame hu
  obtain ⟨evs, hevs⟩ := hframe.events
  obtain rfl | ⟨cause, rfl⟩ := hend
  · exact ⟨hframe.cfg, hframe.nextStreamId, hframe.txReady, hframe.rxOffset, hframe.sessionRecvWindow,
      hframe.phase, hframe.inbox, hframe.trace, hframe.earlier, ⟨evs, hevs⟩,
      fun _ => ⟨hframe.tx, hframe.rxBuf, hframe.draws⟩, hframe.peerIds, hframe.settings,
      fun hk _ => hframe.mode hk⟩
  · refine ⟨hframe.cfg, hframe.nextStreamId, hframe.txReady, hframe.rxOffset, hframe.sessionRecvWindow,
      hframe.phase, hframe.inbox, hframe.trace, hframe.earlier, ⟨evs ++ fatalEvents cause u, ?_⟩,
      fun hopen => absurd rfl hopen, hframe.peerIds, hframe.settings, fun _ hopen => absurd rfl hopen⟩
    rw [← List.append_assoc, ← hevs]
    rfl

/-! ### The other streams -/

/-- Stream `k`'s record, waiting frames and pending writes are the same. -/
structure SameStream (k : StreamId) (s t : State) : Prop where
  record : tableGet t.streams k = tableGet s.streams k
  waiting : waitingFor k t = waitingFor k s
  pending : t.pending.filter (fun w => decide (w.sid = k)) =
    s.pending.filter (fun w => decide (w.sid = k))

theorem SameStream.refl (k : StreamId) (s : State) : SameStream k s s := ⟨rfl, rfl, rfl⟩

theorem SameStream.trans {k : StreamId} {s t u : State} (h : SameStream k s t) (h' : SameStream k t u) :
    SameStream k s u :=
  ⟨h'.record.trans h.record, h'.waiting.trans h.waiting, h'.pending.trans h.pending⟩

/-- A frame queued on another stream does not stand among those of `k`. -/
theorem sameStream_enqueue {sid k : StreamId} (hk : k ≠ sid) (g : Instr) (s : State) :
    SameStream k s (enqueue sid g s) := by
  obtain ⟨-, h⟩ | ⟨r, -, h⟩ := enqueue_cases sid g s <;> rw [h]
  · exact .refl k s
  · refine ⟨rfl, ?_, rfl⟩
    have hfilter : (s.tierq[r.tier] ++ [(sid, g)]).filter (fun e => decide (e.1 = k)) =
        (s.tierq.toList.map fun q => q.filter fun e => decide (e.1 = k))[r.tier]'(by simp) := by
      simp [List.filter_append, hk.symm]
    simp only [waitingFor, setQueue, Vector.toList_set, List.map_set, hfilter]
    exact List.set_getElem_self _

/-- A stream removed with all that waits for it takes nothing of another one along. -/
theorem sameStream_withoutStreams {sid k : StreamId} (hk : k ≠ sid) (s : State) :
    SameStream k s (withoutStreams [sid] s) := by
  refine ⟨?_, ?_, ?_⟩
  · rw [withoutStreams_one]
    exact tableGet_erase_ne _ hk.symm
  · simp only [waitingFor, withoutStreams, mapQueues_toList, List.map_map]
    refine List.map_congr_left fun q _ => ?_
    simp only [Function.comp_apply, List.filter_filter]
    refine List.filter_congr fun e _ => ?_
    by_cases he : e.1 = k <;> simp [he, hk]
  · simp only [withoutStreams, List.filter_filter]
    refine List.filter_congr fun w _ => ?_
    by_cases hw : w.sid = k <;> simp [hw, hk]

theorem controlType_of_streamOf {f : Instr} {sid : StreamId} (hf : streamOf f = some sid) :
    f.controlType? ≠ some .goaway ∧ f.controlType? ≠ some .settings := by
  cases f <;> simp_all [streamOf, Instr.controlType?]

theorem RxChange.sameStream {f : Instr} {s t : State} {sid k : StreamId} (hsid : streamOf f = some sid)
    (hk : k ≠ sid) (h : RxChange f s t) : SameStream k s t := by
  obtain ⟨hgoaway, hsettings⟩ := controlType_of_streamOf hsid
  have hother {sid' : StreamId} (hf : streamOf f = some sid') : k ≠ sid' :=
    Option.some_inj.1 (hsid.symm.trans hf) ▸ hk
  cases h with
  | tell | reply | seen | sessionCredit => exact ⟨rfl, rfl, rfl⟩
  | queue _ g hf => exact sameStream_enqueue (hother hf) g s
  | record _ _ _ hf => exact ⟨tableGet_put_ne _ _ (hother hf).symm, rfl, rfl⟩
  | remove _ _ hf =>
    have hsame := sameStream_withoutStreams (hother hf) s
    exact ⟨hsame.record, hsame.waiting, hsame.pending⟩
  | finish _ _ hf => exact ⟨tableGet_erase_ne _ (hother hf).symm, rfl, rfl⟩
  | openPeer _ _ hf => exact ⟨tableGet_put_ne _ _ (hother hf).symm, rfl, rfl⟩
  | abort _ hf | goingAway _ hf => exact absurd hf hgoaway
  | limit _ hf | initialWindow _ _ hf => exact absurd hf hsettings

/-- Settles O27: unless the frame ended the session, every change was about its stream. -/
theorem framesTouchOneStream : Obligations.FramesTouchOneStream := by
  unfold Obligations.FramesTouchOneStream
  intro f s t sid k hsid h hopen hk
  obtain ⟨u, hu, rfl | ⟨cause, rfl⟩⟩ := exec_eq_next h
  · have hsame : SameStream k s t := by
      clear h hopen
      induction hu with
      | refl => exact .refl k s
      | tail _ hchange ih => exact ih.trans (hchange.sameStream hsid hk)
    obtain ⟨hmode, hgoaway⟩ := (rxRun_frame hu).mode (controlType_of_streamOf hsid).1
    exact ⟨hsame.record, hsame.waiting, hsame.pending, hmode, hgoaway⟩
  · exact absurd rfl hopen

/-! ### The cursor -/

/-- On an open session a frame leaves the receive buffer as it is, or ends the session and empties it. -/
theorem rxBuf_of_exec {f : Instr} {s t : State} (h : exec f s = .next t) :
    t.rxBuf = s.rxBuf ∨ t.mode = .closed ∧ t.rxBuf = [] := by
  obtain ⟨u, hu, rfl | ⟨cause, rfl⟩⟩ := exec_eq_next h
  · exact .inl (rxRun_frame hu).rxBuf
  · exact .inr ⟨rfl, rfl⟩

theorem decodeFailed_eq_next {e : DecodeError} {s t : State} (h : decodeFailed e s = .next t) :
    t = s ∨ ∃ cause, t = afterFatal cause s := by
  unfold decodeFailed at h
  split at h
  next => exact .inl (Host.Outcome.next.inj h).symm
  next => exact .inr ⟨_, (Host.Outcome.next.inj ((fatal_eq _ s).symm.trans h)).symm⟩
  next => exact .inr ⟨_, (Host.Outcome.next.inj ((fatal_eq _ s).symm.trans h)).symm⟩
  next => exact .inr ⟨_, (Host.Outcome.next.inj ((fatal_eq _ s).symm.trans h)).symm⟩
  next => cases h

/-- Settles O14. -/
theorem cursorAdvances : Obligations.CursorAdvances := by
  unfold Obligations.CursorAdvances
  intro s t hphase hopen hheader hcapacity hpayload h
  rw [step_of_receiving hphase] at h
  cases hdecode : decode s.cfg.params (s.rxBuf.take (8 + headerLength s.rxBuf)) with
  | ok f =>
    rw [receiveTurn_of_frame hopen hheader hcapacity hpayload hdecode] at h
    obtain ⟨-, -, -, hoffset, -⟩ := execFrame f _ t h
    exact ⟨hoffset, rxBuf_of_exec h⟩
  | error e =>
    rw [receiveTurn_of_decodeError hopen hheader hcapacity hpayload hdecode] at h
    obtain rfl | ⟨cause, rfl⟩ := decodeFailed_eq_next h
    · exact ⟨rfl, .inl rfl⟩
    · exact ⟨rfl, .inr ⟨rfl, rfl⟩⟩

end Sys2Proof
end

section
/-! PROOF. What a frame does not read: the bytes behind it in the receive buffer (R71, R75), and the
model's own records of finished commands (log entries 10 and 14). `withAside` changes both, and every
operation commutes with it. -/

namespace Sys2Proof

open Machine

/-- The state with further bytes behind the buffer, unless the session is closed, and other records of
the finished commands. -/
def withAside (extra : Bytes) (trace earlier : List Return) (s : State) : State :=
  { s with
    rxBuf := if s.mode = .closed then s.rxBuf else s.rxBuf ++ extra
    trace := trace
    earlier := earlier }

/-- An outcome with its next state changed. -/
def mapNext (g : State → State) (o : Outcome) : Outcome := andThen o fun t => .next (g t)

@[simp] theorem mapNext_next (g : State → State) (s : State) : mapNext g (.next s) = .next (g s) := rfl

theorem mapNext_andThen (g : State → State) {k k' : State → Outcome} (o : Outcome)
    (h : ∀ t, k' (g t) = mapNext g (k t)) : andThen (mapNext g o) k' = mapNext g (andThen o k) := by
  cases o with
  | next t => exact h t
  | fault => rfl
  | refused => rfl

section

variable (extra : Bytes) (trace earlier : List Return)

/-! ### The operations on a stream -/

theorem transition_withAside (sid : StreamId) (e : StreamEvent) (s : State) :
    transition sid e (withAside extra trace earlier s) =
      (transition sid e s).map (withAside extra trace earlier) := by
  cases hget : tableGet s.streams sid with
  | none => simp [transition, withAside, hget, Except.map]
  | some r => cases hst : nextState r.state e <;>
      simp [transition, withAside, hget, hst, Except.map, putStream]

theorem openStream_withAside (sid : StreamId) (tier : Fin 8) (o : Origin) (s : State) :
    openStream sid tier o (withAside extra trace earlier s) =
      (openStream sid tier o s).map (withAside extra trace earlier) := by
  unfold openStream
  simp only [apply_ite (Except.map (withAside extra trace earlier))]
  rfl

theorem orElseSame_withAside (s : State) (o : Except TableError State) :
    orElseSame (withAside extra trace earlier s) (o.map (withAside extra trace earlier)) =
      withAside extra trace earlier (orElseSame s o) := by
  cases o <;> rfl

theorem orElseSame_transition_withAside (sid : StreamId) (e : StreamEvent) (s : State) :
    orElseSame (withAside extra trace earlier s)
        (transition sid e (withAside extra trace earlier s)) =
      withAside extra trace earlier (orElseSame s (transition sid e s)) := by
  rw [transition_withAside, orElseSame_withAside]

theorem orElseSame_openStream_withAside (sid : StreamId) (tier : Fin 8) (o : Origin) (s : State) :
    orElseSame (withAside extra trace earlier s)
        (openStream sid tier o (withAside extra trace earlier s)) =
      withAside extra trace earlier (orElseSame s (openStream sid tier o s)) := by
  rw [openStream_withAside, orElseSame_withAside]

theorem removeIfClosed_withAside (sid : StreamId) (s : State) :
    removeIfClosed sid (withAside extra trace earlier s) =
      withAside extra trace earlier (removeIfClosed sid s) := by
  cases hget : tableGet s.streams sid with
  | none => simp [removeIfClosed, withAside, hget]
  | some r => by_cases hclosed : r.state = .closed <;>
      simp [removeIfClosed, withAside, hget, hclosed, emit, closeStream]

theorem enqueue_withAside (sid : StreamId) (f : Instr) (s : State) :
    enqueue sid f (withAside extra trace earlier s) =
      withAside extra trace earlier (enqueue sid f s) := by
  cases hget : tableGet s.streams sid <;> simp [enqueue, withAside, hget, setQueue]

theorem returnCredit_withAside (sid : StreamId) (n : Nat) (s : State) :
    returnCredit sid n (withAside extra trace earlier s) =
      withAside extra trace earlier (returnCredit sid n s) := by
  by_cases hn : n = 0
  · subst hn
    rfl
  · cases hget : tableGet s.streams sid with
    | none => simp [returnCredit, withAside, hn, hget, enqueueUrgent]
    | some r =>
      by_cases hlive : r.state = .opened ∨ r.state = .halfClosedLocal
      · simp [returnCredit, withAside, hn, hget, hlive, enqueueUrgent, enqueue, putStream, setQueue]
      · simp [returnCredit, withAside, hn, hget, hlive, enqueueUrgent]

/-! ### The meanings of the frames -/

theorem fatal_withAside (cause : FatalCause) (s : State) :
    fatal cause (withAside extra trace earlier s) =
      mapNext (withAside extra trace earlier) (fatal cause s) := by
  rw [fatal_eq, fatal_eq]
  rfl

theorem streamError_withAside (sid : StreamId) (status : Word32) (reason : CloseReason) (s : State) :
    streamError sid status reason (withAside extra trace earlier s) =
      withAside extra trace earlier (streamError sid status reason s) := by
  rw [streamError_eq, streamError_eq]
  rfl

theorem finishPeer_withAside (sid : StreamId) (s : State) :
    removeIfClosed sid (orElseSame (withAside extra trace earlier s)
        (transition sid .recvFin (withAside extra trace earlier s))) =
      withAside extra trace earlier (removeIfClosed sid (orElseSame s (transition sid .recvFin s))) := by
  rw [orElseSame_transition_withAside, removeIfClosed_withAside]

theorem finishHeaders_withAside (sid : StreamId) (flags : Byte) (s : State) :
    finishHeaders sid flags (withAside extra trace earlier s) =
      withAside extra trace earlier (finishHeaders sid flags s) := by
  have hfin := finishPeer_withAside extra trace earlier sid (emit (.onData sid [] true) s)
  unfold finishHeaders
  rw [apply_ite (withAside extra trace earlier)]
  simp only [← hfin]
  rfl

theorem receiveHeaders_withAside (sid : StreamId) (flags : Byte) (hb : Bytes) (s : State) :
    receiveHeaders sid flags hb (withAside extra trace earlier s) =
      withAside extra trace earlier (receiveHeaders sid flags hb s) := by
  unfold receiveHeaders
  rw [transition_withAside]
  cases transition sid .recvFrame s with
  | ok t => exact finishHeaders_withAside extra trace earlier sid flags (emit (.onHeaders sid hb) t)
  | error e =>
    cases e with
    | unknownStream => rfl
    | duplicateId | badParity | invalidTransition => exact streamError_withAside ..

theorem receiveRst_withAside (sid : StreamId) (status : Word32) (s : State) :
    receiveRst sid status (withAside extra trace earlier s) =
      withAside extra trace earlier (receiveRst sid status s) := by
  cases hget : tableGet s.streams sid with
  | none =>
    rw [receiveRst_of_unknown hget, receiveRst_of_unknown (s := withAside extra trace earlier s) hget]
  | some r =>
    have hin : (tableGet s.streams sid).isSome = true := by simp [hget]
    rw [receiveRst_of_isSome hin, receiveRst_of_isSome (s := withAside extra trace earlier s) hin,
      orElseSame_transition_withAside]
    rfl

theorem receiveData_withAside (sid : StreamId) (flags : Byte) (payload : Bytes) (s : State) :
    receiveData sid flags payload (withAside extra trace earlier s) =
      mapNext (withAside extra trace earlier) (receiveData sid flags payload s) := by
  unfold receiveData
  rw [transition_withAside]
  cases transition sid .recvFrame s with
  | error e =>
    cases e with
    | unknownStream => rfl
    | duplicateId | badParity | invalidTransition =>
      exact congrArg Host.Outcome.next (streamError_withAside ..)
  | ok t =>
    cases hget : tableGet t.streams sid with
    | none => simp [Except.map, withAside, hget]
    | some r =>
      have hfatal := fatal_withAside extra trace earlier (.flowControlViolation .recvWindowExceeded) t
      have hfin := finishPeer_withAside extra trace earlier sid (deliverData sid r payload true t)
      have hcredit := returnCredit_withAside extra trace earlier sid payload.length
      have hget' : tableGet (withAside extra trace earlier t).streams sid = some r := hget
      simp only [Except.map, hget', hget, apply_ite (mapNext (withAside extra trace earlier)), ← hfatal,
        mapNext_next]
      refine if_congr Iff.rfl rfl (congrArg Host.Outcome.next ?_)
      rw [← hcredit]
      cases hflag : finSet t.cfg.params flags with
      | false => simp only [debitRecv_cfg, hflag, withAside, Bool.false_eq_true, if_false]; rfl
      | true =>
        simp only [debitRecv_cfg, hflag, if_true]
        rw [show emit (.onData sid payload true) (debitRecv sid r payload.length t) =
          deliverData sid r payload true t from rfl, ← hfin]
        simp only [withAside, hflag, if_true]
        rfl

/-- A SYN_STREAM of the peer that passes the checks (R263). -/
theorem openPeer_withAside (sid : StreamId) (flags : Byte) (tier : Fin 8) (hb : Bytes) (s : State) :
    let opened (u : State) := orElseSame u (openStream sid tier .peers u)
    let answered (u : State) := orElseSame (opened u) (transition sid .recvSyn (opened u))
    finishHeaders sid flags (emit (.onHeaders sid hb)
        { answered (withAside extra trace earlier s) with lastGoodPeerId := sid }) =
      withAside extra trace earlier
        (finishHeaders sid flags
          (emit (.onHeaders sid hb) { answered s with lastGoodPeerId := sid })) := by
  intro opened answered
  have hopened : opened (withAside extra trace earlier s) = withAside extra trace earlier (opened s) :=
    orElseSame_openStream_withAside ..
  have hanswered : answered (withAside extra trace earlier s) =
      withAside extra trace earlier (answered s) := by
    simp only [answered, hopened, orElseSame_transition_withAside]
  rw [hanswered, ← finishHeaders_withAside]
  rfl

theorem receiveSynStream_withAside (sid : StreamId) (flags : Byte) (tier : Fin 8) (hb : Bytes)
    (s : State) : receiveSynStream sid flags tier hb (withAside extra trace earlier s) =
      mapNext (withAside extra trace earlier) (receiveSynStream sid flags tier hb s) := by
  have herror := streamError_withAside extra trace earlier sid s.cfg.params.rstProtocolError
    (.streamProtocolError .wrongParity) s
  have hfatal := fatal_withAside extra trace earlier (.sessionProtocolError .streamIdNotIncreasing) s
  have hopen := openPeer_withAside extra trace earlier sid flags tier hb { s with lastPeerId := sid }
  unfold receiveSynStream
  simp only [apply_ite (mapNext (withAside extra trace earlier)), mapNext_next, ← hfatal, ← herror]
  rw [← hopen]
  rfl

theorem adjustInitialWindow_withAside (v : Word32) (s : State) :
    adjustInitialWindow v (withAside extra trace earlier s) =
      (adjustInitialWindow v s).map (withAside extra trace earlier) := by
  unfold adjustInitialWindow
  split
  next =>
    rw [apply_ite (Except.map (withAside extra trace earlier))]
    rfl
  next => rfl

theorem applySettings_withAside (entries : List SettingsEntry) (s : State) :
    applySettings entries (withAside extra trace earlier s) =
      mapNext (withAside extra trace earlier) (applySettings entries s) := by
  induction entries generalizing s with
  | nil => rfl
  | cons e rest ih =>
    unfold applySettings
    rw [apply_ite (mapNext (withAside extra trace earlier)),
      apply_ite (mapNext (withAside extra trace earlier)), adjustInitialWindow_withAside, ← ih, ← ih]
    refine if_congr Iff.rfl rfl (if_congr Iff.rfl ?_ rfl)
    cases adjustInitialWindow e.value s with
    | ok t => exact ih t
    | error cause => exact fatal_withAside extra trace earlier cause s

theorem replenish_withAside (sid : StreamId) (n : Nat) (s : State) :
    replenish sid n (withAside extra trace earlier s) =
      (replenish sid n s).map (withAside extra trace earlier) := by
  unfold replenish
  rw [apply_ite (Option.map (withAside extra trace earlier)),
    apply_ite (Option.map (withAside extra trace earlier))]
  refine if_congr Iff.rfl rfl ?_
  cases hget : tableGet s.streams sid with
  | none => simp only [withAside, hget, Option.map_some]
  | some r =>
    simp only [withAside, hget, apply_ite (Option.map (withAside extra trace earlier))]
    rfl

theorem receiveWindowUpdate_withAside (sid : StreamId) (delta : BitVec 31) (s : State) :
    receiveWindowUpdate sid delta (withAside extra trace earlier s) =
      mapNext (withAside extra trace earlier) (receiveWindowUpdate sid delta s) := by
  unfold receiveWindowUpdate
  rw [replenish_withAside]
  cases replenish sid delta.toNat s with
  | some t => rfl
  | none =>
    simp only [Option.map_none, apply_ite (mapNext (withAside extra trace earlier)), mapNext_next,
      fatal_withAside, streamError_withAside]
    rfl

theorem abortAbove_withAside (lastGood : StreamId) (sids : List StreamId) (s : State) :
    abortAbove lastGood sids (withAside extra trace earlier s) =
      withAside extra trace earlier (abortAbove lastGood sids s) := by
  induction sids generalizing s with
  | nil => rfl
  | cons sid rest ih =>
    unfold abortAbove
    rw [apply_ite (withAside extra trace earlier), ← ih, ← ih]
    rfl

/-- On an open session a GOAWAY does not close it, so the bytes behind it wait. -/
theorem receiveGoaway_withAside (lastGood : StreamId) (status : Word32) {s : State}
    (hopen : s.mode ≠ .closed) : receiveGoaway lastGood status (withAside extra trace earlier s) =
      withAside extra trace earlier (receiveGoaway lastGood status s) := by
  have htold : goawayTold lastGood status (withAside extra trace earlier s) =
      withAside extra trace earlier (goawayTold lastGood status s) := by
    simp [goawayTold, withAside, emit, hopen]
  rw [receiveGoaway_eq, receiveGoaway_eq, htold, abortAbove_withAside]
  rfl

theorem versionChecked_withAside {ver : VersionTag} {s : State} {k k' : Outcome}
    (h : k' = mapNext (withAside extra trace earlier) k) :
    versionChecked ver (withAside extra trace earlier s) k' =
      mapNext (withAside extra trace earlier) (versionChecked ver s k) := by
  unfold versionChecked
  rw [h, fatal_withAside, apply_ite (mapNext (withAside extra trace earlier))]
  rfl

theorem streamNamed_withAside {sid : StreamId} {s : State} {k k' : Outcome}
    (h : k' = mapNext (withAside extra trace earlier) k) :
    streamNamed sid (withAside extra trace earlier s) k' =
      mapNext (withAside extra trace earlier) (streamNamed sid s k) := by
  unfold streamNamed
  rw [h, fatal_withAside, apply_ite (mapNext (withAside extra trace earlier))]

/-- A frame on an open session reads neither the bytes behind it nor the records. -/
theorem exec_withAside (f : Instr) {s : State} (hopen : s.mode ≠ .closed) :
    exec f (withAside extra trace earlier s) = mapNext (withAside extra trace earlier) (exec f s) := by
  cases f with
  | data => exact streamNamed_withAside _ _ _ (receiveData_withAside ..)
  | synStream =>
    exact versionChecked_withAside _ _ _ (streamNamed_withAside _ _ _ (receiveSynStream_withAside ..))
  | synReply | headers =>
    exact versionChecked_withAside _ _ _ (streamNamed_withAside _ _ _
      (congrArg Host.Outcome.next (receiveHeaders_withAside ..)))
  | rstStream =>
    exact versionChecked_withAside _ _ _ (streamNamed_withAside _ _ _
      (congrArg Host.Outcome.next (receiveRst_withAside ..)))
  | settings => exact versionChecked_withAside _ _ _ (applySettings_withAside ..)
  | ping => exact versionChecked_withAside _ _ _ rfl
  | goaway =>
    exact versionChecked_withAside _ _ _
      (congrArg Host.Outcome.next (receiveGoaway_withAside _ _ _ _ _ hopen))
  | windowUpdate => exact versionChecked_withAside _ _ _ (receiveWindowUpdate_withAside ..)

theorem decodeFailed_withAside (e : DecodeError) (s : State) :
    decodeFailed e (withAside extra trace earlier s) =
      mapNext (withAside extra trace earlier) (decodeFailed e s) := by
  cases e with
  | unknownFrameType | outOfBounds => rfl
  | malformed | illegalBits | unknownVersion => exact fatal_withAside ..

end

/-! ### The bytes behind a whole frame -/

theorem headerLength_append {buf : Bytes} (h : 8 ≤ buf.length) (extra : Bytes) :
    headerLength (buf ++ extra) = headerLength buf := by
  rw [headerLength, headerLength, List.drop_append_of_le_length (by omega),
    List.take_append_of_le_length (by rw [List.length_drop]; omega)]

/-- A turn on a whole frame, or one that is over the capacity, does the same with bytes behind it. -/
theorem receiveTurn_withAside (extra : Bytes) (trace earlier : List Return) {s : State}
    (hopen : s.mode ≠ .closed) (hheader : 8 ≤ s.rxBuf.length)
    (hpayload : 8 + headerLength s.rxBuf ≤ s.rxBuf.length) :
    receiveTurn (withAside extra trace earlier s) =
      mapNext (withAside extra trace earlier) (receiveTurn s) := by
  have hbuf : (withAside extra trace earlier s).rxBuf = s.rxBuf ++ extra := if_neg hopen
  have hlength : headerLength (withAside extra trace earlier s).rxBuf = headerLength s.rxBuf := by
    rw [hbuf, headerLength_append hheader]
  have hheader' : 8 ≤ (withAside extra trace earlier s).rxBuf.length := by
    rw [hbuf, List.length_append]
    omega
  have hpayload' : 8 + headerLength (withAside extra trace earlier s).rxBuf ≤
      (withAside extra trace earlier s).rxBuf.length := by
    rw [hlength, hbuf, List.length_append]
    omega
  by_cases hcapacity : s.cfg.rxBufMax < 8 + headerLength s.rxBuf
  case pos =>
    rw [receiveTurn_of_overCapacity hopen hheader hcapacity, receiveTurn_of_overCapacity
      (s := withAside extra trace earlier s) hopen hheader' (by rw [hlength]; exact hcapacity)]
    exact fatal_withAside ..
  case neg =>
    have hfits := not_lt.1 hcapacity
    have hfits' : 8 + headerLength (withAside extra trace earlier s).rxBuf ≤
        (withAside extra trace earlier s).cfg.rxBufMax := by rw [hlength]; exact hfits
    have hcut : cutFrame (8 + headerLength (withAside extra trace earlier s).rxBuf)
        (withAside extra trace earlier s) =
        withAside extra trace earlier (cutFrame (8 + headerLength s.rxBuf) s) := by
      simp only [hlength]
      simp [cutFrame, withAside, hopen, List.drop_append_of_le_length hpayload]
    have hframe : (withAside extra trace earlier s).rxBuf.take
        (8 + headerLength (withAside extra trace earlier s).rxBuf) =
        s.rxBuf.take (8 + headerLength s.rxBuf) := by
      rw [hlength, hbuf, List.take_append_of_le_length hpayload]
    cases hdecode : decode s.cfg.params (s.rxBuf.take (8 + headerLength s.rxBuf)) with
    | ok f =>
      rw [receiveTurn_of_frame hopen hheader hfits hpayload hdecode, receiveTurn_of_frame
        (s := withAside extra trace earlier s) hopen hheader' hfits' hpayload'
        (by rw [hframe]; exact hdecode), hcut]
      exact exec_withAside _ _ _ f (s := cutFrame _ s) hopen
    | error e =>
      rw [receiveTurn_of_decodeError hopen hheader hfits hpayload hdecode, receiveTurn_of_decodeError
        (s := withAside extra trace earlier s) hopen hheader' hfits' hpayload'
        (by rw [hframe]; exact hdecode), hcut]
      exact decodeFailed_withAside ..

/-- A turn on a whole frame, or one over the capacity, keeps the records of the finished commands. -/
theorem records_of_receiveTurn {s t : State} (hopen : s.mode ≠ .closed) (hheader : 8 ≤ s.rxBuf.length)
    (hpayload : 8 + headerLength s.rxBuf ≤ s.rxBuf.length) (h : receiveTurn s = .next t) :
    t.trace = s.trace ∧ t.earlier = s.earlier := by
  by_cases hcapacity : s.cfg.rxBufMax < 8 + headerLength s.rxBuf
  case pos =>
    rw [receiveTurn_of_overCapacity hopen hheader hcapacity, fatal_eq] at h
    cases h
    exact ⟨rfl, rfl⟩
  case neg =>
    have hfits := not_lt.1 hcapacity
    cases hdecode : decode s.cfg.params (s.rxBuf.take (8 + headerLength s.rxBuf)) with
    | ok f =>
      rw [receiveTurn_of_frame hopen hheader hfits hpayload hdecode] at h
      obtain ⟨-, -, -, -, -, -, -, htrace, hearlier, -⟩ := execFrame f _ t h
      exact ⟨htrace, hearlier⟩
    | error e =>
      rw [receiveTurn_of_decodeError hopen hheader hfits hpayload hdecode] at h
      obtain rfl | ⟨cause, rfl⟩ := decodeFailed_eq_next h
      · exact ⟨rfl, rfl⟩
      · exact ⟨rfl, rfl⟩

/-- Settles O15: the turn with the bytes `extra` behind the frame, the records as they are. -/
theorem laterBytesWait : Obligations.LaterBytesWait := by
  unfold Obligations.LaterBytesWait
  intro s t extra hphase hopen hheader hpayload h
  have hwith : { s with rxBuf := s.rxBuf ++ extra } = withAside extra s.trace s.earlier s := by
    simp [withAside, hopen]
  rw [step_of_receiving hphase] at h
  obtain ⟨htrace, hearlier⟩ := records_of_receiveTurn hopen hheader hpayload h
  rw [hwith, step_of_receiving (s := withAside extra s.trace s.earlier s) hphase,
    receiveTurn_withAside extra s.trace s.earlier hopen hheader hpayload, h, mapNext_next]
  rw [withAside, ← htrace, ← hearlier]
  split
  next => rfl
  next => rfl

end Sys2Proof
end

section
/-! PROOF. What a step can do, said once: `StepCase` for the shape of a step, `Change` for the single
changes it is made of. The invariants (O46 to O52) and the rules of the whole machine (O54 to O58, O60)
are read off these. -/

namespace Sys2Proof

open Machine

/-! ### The commands up to the epilogue -/

/-- The frame that announces a stream of our own (R300). -/
def ourSyn (c : Cfg) (sid : StreamId) (tier : Fin 8) (hb : Bytes) : Instr :=
  .synStream (wireVersion c) 0 sid 0 tier hb

/-- The next local ID opens a stream: it is one of ours and not in the table (R22, R38). -/
def Fresh (sid : StreamId) (s : State) : Prop :=
  sid ≠ 0 ∧ isLocal s.cfg.role sid = true ∧ tableGet s.streams sid = none

/-- The state in which a command that does not refuse runs its epilogue (R300 to R314). -/
inductive CommandBody (s : State) : State → Prop
  | ready (b : Bool) : CommandBody s { s with txReady := b }
  | error (sid : StreamId) (status : Word32) (reason : CloseReason)
      (hin : (tableGet s.streams sid).isSome = true) :
      CommandBody s (afterStreamError sid status reason s)
  | accept (sid : StreamId) (r : Stream) (bytes : Bytes) (fin : Bool)
      (hget : tableGet s.streams sid = some r) (hsend : CanSend r) (hfin : r.localFinQueued = false) :
      CommandBody s { s with
        pending := s.pending ++ [⟨sid, bytes, fin⟩]
        streams := if fin then tablePut s.streams sid { r with localFinQueued := true }
          else s.streams }
  | opens (sid : StreamId) (tier : Fin 8) (hb : Bytes) (hid : sid.toNat = s.nextStreamId)
      (hfresh : Fresh sid s) (htier : tier.val < nTiers s.cfg.version)
      (hlen : 10 + hb.length ≤ maxPayload) :
      CommandBody s (enqueue sid (ourSyn s.cfg sid tier hb)
        (putStream sid { freshStream tier s with state := .opened }
          { s with nextStreamId := s.nextStreamId + 2 }))
  /-- An ID that is not fresh, which the table invariant excludes (log entry 9). -/
  | opensTaken (sid : StreamId) (tier : Fin 8) (hb : Bytes) (hid : sid.toNat = s.nextStreamId)
      (hfresh : ¬ Fresh sid s) (htier : tier.val < nTiers s.cfg.version)
      (hlen : 10 + hb.length ≤ maxPayload) (streams : StreamTable)
      (hstreams : streams = s.streams ∨ ∃ r, tableGet s.streams sid = some r ∧ r.state = .idle ∧
        streams = tablePut s.streams sid { r with state := .opened }) :
      CommandBody s (enqueue sid (ourSyn s.cfg sid tier hb)
        { s with nextStreamId := s.nextStreamId + 2, streams := streams })

/-- What a step other than a `Reset` can do (R13, R261, R335). -/
inductive StepCase (s : State) : State → Prop
  | waits (hidle : s.phase = .idle) : StepCase s s
  | refused (c : Command) (rest : List Command) (result : Result) (hidle : s.phase = .idle)
      (hinbox : s.inbox = c :: rest) : StepCase s (ret result { s with inbox := rest })
  | faulted (c : Command) (rest : List Command) (result : Result) (hidle : s.phase = .idle)
      (hinbox : s.inbox = c :: rest) (hlive : ended s = false) :
      StepCase s (ret result { s with inbox := rest, mode := .fault })
  | buffered (c : Command) (rest : List Command) (chunk : Bytes) (hidle : s.phase = .idle)
      (hinbox : s.inbox = c :: rest) (hlive : ended s = false) :
      StepCase s { s with inbox := rest, rxBuf := s.rxBuf ++ chunk, phase := .receiving }
  | closes (c : Command) (rest : List Command) (status : Word32) (hidle : s.phase = .idle)
      (hinbox : s.inbox = c :: rest) (hlive : ended s = false) :
      StepCase s (ret .ok (tornDown status (abortEvents s.streams) { s with inbox := rest }))
  | runs (c : Command) (rest : List Command) (result : Result) (u v : State) (hidle : s.phase = .idle)
      (hinbox : s.inbox = c :: rest) (hlive : ended s = false)
      (hbody : CommandBody { s with inbox := rest } u) (hepilogue : epilogue u = .next v) :
      StepCase s (ret result v)
  | received (v : State) (hphase : s.phase = .receiving)
      (hend : s.mode = .closed ∨ rxShort s.rxBuf) (hepilogue : epilogue s = .next v) :
      StepCase s (ret .ok v)
  | fatalTurn (n : Nat) (cause : FatalCause) (hphase : s.phase = .receiving)
      (hopen : s.mode ≠ .closed) : StepCase s (afterFatal cause (cutFrame n s))
  | skipped (n : Nat) (hphase : s.phase = .receiving) (hopen : s.mode ≠ .closed) :
      StepCase s (cutFrame n s)
  | frame (n : Nat) (f : Instr) (t : State) (hphase : s.phase = .receiving) (hopen : s.mode ≠ .closed)
      (htier : f.tierOk s.cfg.params = true) (hexec : exec f (cutFrame n s) = .next t) : StepCase s t

/-! ### A turn of the receive loop -/

theorem stepCase_receiving {s t : State} (hphase : s.phase = .receiving) (h : step s = .next t) :
    StepCase s t := by
  rw [step_of_receiving hphase] at h
  by_cases hclosed : s.mode = .closed
  case pos =>
    rw [receiveTurn_of_waiting (.inl hclosed), finishReceive_eq] at h
    obtain ⟨v, hv, ht⟩ := andThen_eq_next.1 h
    cases ht
    exact .received v hphase (.inl hclosed) hv
  case neg =>
    by_cases hshort : rxShort s.rxBuf ∧
        ¬ (8 ≤ s.rxBuf.length ∧ s.cfg.rxBufMax < 8 + headerLength s.rxBuf)
    case pos =>
      obtain ⟨hshort, hcapacity⟩ := hshort
      have hwait : s.rxBuf.length < 8 ∨
          8 + headerLength s.rxBuf ≤ s.cfg.rxBufMax ∧ s.rxBuf.length < 8 + headerLength s.rxBuf := by
        unfold rxShort at hshort
        omega
      rw [receiveTurn_of_waiting (.inr hwait), finishReceive_eq] at h
      obtain ⟨v, hv, ht⟩ := andThen_eq_next.1 h
      cases ht
      exact .received v hphase (.inr hshort) hv
    case neg =>
      have hheader : 8 ≤ s.rxBuf.length := by
        unfold rxShort at hshort
        omega
      by_cases hcapacity : s.cfg.rxBufMax < 8 + headerLength s.rxBuf
      case pos =>
        rw [receiveTurn_of_overCapacity hclosed hheader hcapacity, fatal_eq] at h
        cases h
        exact .fatalTurn 0 _ hphase hclosed
      case neg =>
        have hpayload : 8 + headerLength s.rxBuf ≤ s.rxBuf.length := by
          unfold rxShort at hshort
          omega
        cases hdecode : decode s.cfg.params (s.rxBuf.take (8 + headerLength s.rxBuf)) with
        | ok f =>
          rw [receiveTurn_of_frame hclosed hheader (not_lt.1 hcapacity) hpayload hdecode] at h
          obtain ⟨-, htier, -⟩ := encodeInvertsDecode s.cfg.params s.cfg.build _ f hdecode
          exact .frame _ f t hphase hclosed htier h
        | error e =>
          rw [receiveTurn_of_decodeError hclosed hheader (not_lt.1 hcapacity) hpayload hdecode] at h
          obtain rfl | ⟨cause, rfl⟩ := decodeFailed_eq_next h
          · exact .skipped _ hphase hclosed
          · exact .fatalTurn _ cause hphase hclosed

/-! ### A command -/

theorem tierPolicy_lt {c : Cfg} {priority : Nat} {tier : Fin 8} (h : tierPolicy c priority = some tier) :
    tier.val < nTiers c.version := by
  have hpos := nTiers_pos c.version
  have hle := nTiers_le c.version
  unfold tierPolicy at h
  split at h
  next hrange =>
    cases h
    rw [Fin.val_ofNat]
    omega
  next =>
    split at h
    next => cases h
    next =>
      cases h
      rw [Fin.val_ofNat]
      omega

theorem nextState_sendSyn {a b : StreamState} (h : nextState a .sendSyn = some b) :
    a = .idle ∧ b = .opened := by
  cases a <;> cases h
  exact ⟨rfl, rfl⟩

/-- The stream a command opens, fresh or not. -/
theorem openLocal_body {s : State} {tier : Fin 8} (hb : Bytes) (hroom : s.nextStreamId ≤ maxStreamId)
    (htier : tier.val < nTiers s.cfg.version) (hlen : 10 + hb.length ≤ maxPayload) :
    ∃ sid u, CommandBody s u ∧ openLocal tier hb s = epilogueThen (.okId sid) u := by
  have hid : (BitVec.ofNat 31 s.nextStreamId).toNat = s.nextStreamId := by
    rw [BitVec.toNat_ofNat]
    exact Nat.mod_eq_of_lt (Nat.lt_of_le_of_lt hroom (by decide))
  refine ⟨BitVec.ofNat 31 s.nextStreamId, ?_⟩
  generalize hsid : BitVec.ofNat 31 s.nextStreamId = sid at hid
  by_cases hfresh : Fresh sid s
  case pos =>
    refine ⟨_, .opens sid tier hb hid hfresh htier hlen, ?_⟩
    obtain ⟨hzero, hlocal, hget⟩ := hfresh
    have hopen := openOurs_eq (s := { s with nextStreamId := s.nextStreamId + 2 }) hzero hlocal hget tier
    simp only [openLocal, hsid, hopen]
    rfl
  case neg =>
    have hopen : orElseSame { s with nextStreamId := s.nextStreamId + 2 }
        (openStream sid tier .ours { s with nextStreamId := s.nextStreamId + 2 }) =
        { s with nextStreamId := s.nextStreamId + 2 } := by
      obtain hok | hsame := orElseSame_cases { s with nextStreamId := s.nextStreamId + 2 }
        (openStream sid tier .ours { s with nextStreamId := s.nextStreamId + 2 })
      · obtain ⟨hzero, hlocal, hget, -⟩ := openStream_eq_ok.1 hok
        exact absurd ⟨hzero, hlocal, hget⟩ hfresh
      · exact hsame
    have hbody := CommandBody.opensTaken (s := s) sid tier hb hid hfresh htier hlen
    obtain hsame | ⟨r, st, hget, hst, hput⟩ :=
        orElseSame_transition sid .sendSyn { s with nextStreamId := s.nextStreamId + 2 }
    · refine ⟨_, hbody _ (.inl rfl), ?_⟩
      simp only [openLocal, hsid, hopen, hsame]
      rfl
    · obtain ⟨hidle, rfl⟩ := nextState_sendSyn hst
      refine ⟨_, hbody _ (.inr ⟨r, hget, hidle, rfl⟩), ?_⟩
      simp only [openLocal, hsid, hopen, hput]
      rfl

/-- A command answers at once, or runs its epilogue after its body. -/
inductive CommandEnds (s : State) : Outcome → Prop
  | refused (result : Result) : CommandEnds s (.next (ret result s))
  | faulted (result : Result) (hlive : ended s = false) :
      CommandEnds s (.next (ret result { s with mode := .fault }))
  | buffered (chunk : Bytes) (hlive : ended s = false) :
      CommandEnds s (.next { s with rxBuf := s.rxBuf ++ chunk, phase := .receiving })
  | closes (status : Word32) (hlive : ended s = false) :
      CommandEnds s (.next (ret .ok (tornDown status (abortEvents s.streams) s)))
  | runs (result : State → Result) (u : State) (hlive : ended s = false) (hbody : CommandBody s u) :
      CommandEnds s (andThen (epilogue u) fun v => .next (ret (result v) v))

theorem cmdOpenStream_ends {s : State} (hlive : ended s = false) (priority : Nat) (hb : Bytes) :
    CommandEnds s (cmdOpenStream priority hb s) := by
  cases hgone : goneAway s with
  | true =>
    rw [cmdOpenStream_of_goneAway hlive hb hgone]
    exact .refused _
  | false =>
    cases htier : tierPolicy s.cfg priority with
    | none =>
      rw [cmdOpenStream_of_tierFault hlive hb hgone htier]
      exact .faulted _ hlive
    | some tier =>
      by_cases hex : exhausted hb s
      case pos =>
        rw [cmdOpenStream_of_exhausted hlive hgone htier hex]
        exact .refused _
      case neg =>
        rw [cmdOpenStream_of_room hlive hgone htier hex]
        rw [exhausted, not_or, not_or, not_lt, not_lt] at hex
        obtain ⟨hroom, hlen, -⟩ := hex
        obtain ⟨sid, u, hbody, hopen⟩ := openLocal_body hb hroom (tierPolicy_lt htier) hlen
        rw [hopen]
        exact .runs (fun _ => .okId sid) u hlive hbody

theorem cmdSendData_ends {s : State} (hlive : ended s = false) (sid : StreamId) (bytes : Bytes)
    (fin : Bool) : CommandEnds s (cmdSendData sid bytes fin s) := by
  cases hget : tableGet s.streams sid with
  | none =>
    rw [cmdSendData_of_unknown hlive bytes fin hget]
    exact .refused _
  | some r =>
    by_cases hfinished : (r.state ≠ .opened ∧ r.state ≠ .halfClosedRemote) ∨ r.localFinQueued = true
    case pos =>
      rw [cmdSendData_of_finished hlive bytes fin hget hfinished]
      exact .runs (fun _ => _) _ hlive (.error sid _ _ (by simp [hget]))
    case neg =>
      have hsend : CanSend r := by
        unfold CanSend
        tauto
      have hfin : r.localFinQueued = false := by
        simpa using (not_or.1 hfinished).2
      rw [cmdSendData_of_sendable hlive bytes fin hget hsend hfin, acceptWrite_eq]
      exact .runs (fun t => if dataWaiting sid t then .pending else .ok) _ hlive
        (.accept sid r bytes fin hget hsend hfin)

theorem cmdResetStream_ends {s : State} (hlive : ended s = false) (sid : StreamId) (code : Word32) :
    CommandEnds s (cmdResetStream sid code s) := by
  cases hget : tableGet s.streams sid with
  | none =>
    rw [cmdResetStream_of_unknown hlive code hget]
    exact .refused _
  | some r =>
    have hin : (tableGet s.streams sid).isSome = true := by simp [hget]
    rw [cmdResetStream_of_known hlive code hin]
    exact .runs (fun _ => .ok) _ hlive (.error sid _ _ hin)

theorem runCommand_ends (c : Command) (hreset : ∀ cfg, c ≠ .reset cfg) (s : State) :
    CommandEnds s (runCommand c s) := by
  cases hlive : ended s with
  | true =>
    rw [runCommand_of_ended hlive hreset]
    exact .refused _
  | false =>
    cases c with
    | reset cfg => exact absurd rfl (hreset cfg)
    | onBytes chunk =>
      rw [runCommand, cmdOnBytes, unlessEnded_of_live hlive]
      exact .buffered chunk hlive
    | transportBlocked =>
      rw [runCommand, cmdTransportBlocked, unlessEnded_of_live hlive]
      exact .runs (fun _ => .ok) _ hlive (.ready false)
    | transportWritable =>
      rw [runCommand, cmdTransportWritable, unlessEnded_of_live hlive]
      exact .runs (fun _ => .ok) _ hlive (.ready true)
    | openStream priority hb => exact cmdOpenStream_ends hlive priority hb
    | sendData sid bytes fin => exact cmdSendData_ends hlive sid bytes fin
    | resetStream sid code => exact cmdResetStream_ends hlive sid code
    | close status =>
      rw [runCommand, cmdClose_of_live hlive]
      exact .closes status hlive

theorem stepCase_command {s t : State} {c : Command} {rest : List Command} (hidle : s.phase = .idle)
    (hinbox : s.inbox = c :: rest) (hreset : ∀ cfg, c ≠ .reset cfg) (h : step s = .next t) :
    StepCase s t := by
  rw [step_of_command hidle hinbox] at h
  have hends := runCommand_ends c hreset { s with inbox := rest }
  rw [h] at hends
  generalize ho : Host.Outcome.next t = o at hends
  cases hends with
  | refused result =>
    cases ho
    exact .refused c rest result hidle hinbox
  | faulted result hlive =>
    cases ho
    exact .faulted c rest result hidle hinbox hlive
  | buffered chunk hlive =>
    cases ho
    exact .buffered c rest chunk hidle hinbox hlive
  | closes status hlive =>
    cases ho
    exact .closes c rest status hidle hinbox hlive
  | runs result u hlive hbody =>
    obtain ⟨v, hv, ht⟩ := andThen_eq_next.1 ho.symm
    cases ht
    exact .runs c rest _ u v hidle hinbox hlive hbody hv

/-! ### A step -/

theorem resetsNext_iff {s : State} :
    resetsNext s = true ↔ s.phase = .idle ∧ ∃ c rest, s.inbox = .reset c :: rest := by
  unfold resetsNext
  split
  next c rest hphase hinbox => exact iff_of_true rfl ⟨hphase, c, rest, hinbox⟩
  next hother =>
    refine iff_of_false Bool.false_ne_true ?_
    rintro ⟨hphase, c, rest, hinbox⟩
    exact hother c rest hphase hinbox

theorem stepCase {s t : State} (hreset : resetsNext s = false) (h : step s = .next t) :
    StepCase s t := by
  have hno := mt resetsNext_iff.2 (ne_true_of_eq_false hreset)
  cases hphase : s.phase with
  | receiving => exact stepCase_receiving hphase h
  | idle =>
    cases hinbox : s.inbox with
    | nil =>
      simp only [step, hphase, takeCommand, hinbox] at h
      cases h
      exact .waits hphase
    | cons c rest =>
      refine stepCase_command hphase hinbox ?_ h
      rintro cfg rfl
      exact hno ⟨hphase, cfg, rest, hinbox⟩

/-- The state a `Reset` leaves (R43, R370). -/
def afterReset (c : Cfg) (rest : List Command) (s : State) : State :=
  { State.ofCfg c with
    inbox := rest
    trace := [⟨.ok, [], []⟩]
    earlier := s.earlier ++ s.trace
    draws := s.draws }

theorem step_of_reset {s t : State} (hreset : resetsNext s = true) (h : step s = .next t) :
    ∃ c rest, s.inbox = .reset c :: rest ∧ t = afterReset c rest s := by
  obtain ⟨hidle, c, rest, hinbox⟩ := resetsNext_iff.1 hreset
  rw [step_of_command hidle hinbox] at h
  exact ⟨c, rest, hinbox, (Host.Outcome.next.inj h).symm⟩

end Sys2Proof
end

section
/-! PROOF. The single changes a step is made of (`Change`), and those DRAIN is made of (`GateChange`). A
predicate that every change keeps is kept by every step but a `Reset` (`step_keeps`). -/

namespace Sys2Proof

open Machine

/-! ### The changes of DRAIN -/

/-- What DRAIN does to the state, one change at a time (R305). -/
inductive GateChange (s : State) : State → Prop
  /-- Pieces of a write are queued and paid for. -/
  | pieces (sid : StreamId) (r : Stream) (fin : Bool) (sent : List Bytes)
      (hget : tableGet s.streams sid = some r)
      (hpaid : sent ≠ [] → (sent.flatten.length : Int) ≤ min r.sendWindow s.sessionSendWindow)
      (hfits : ∀ b ∈ sent, b.length ≤ s.cfg.maxDataPayload.val) :
      GateChange s (queuePieces sid r fin sent s)
  /-- This side finishes an open stream. -/
  | half (sid : StreamId) (r : Stream) (hget : tableGet s.streams sid = some r)
      (hopened : r.state = .opened) :
      GateChange s (putStream sid { r with state := .halfClosedLocal } s)
  /-- This side finishes a stream the peer has finished (R197). -/
  | finish (sid : StreamId) (r : Stream) (hget : tableGet s.streams sid = some r)
      (hdone : r.state = .halfClosedRemote ∨ r.state = .closed) :
      GateChange s (emit (.onStreamClosed sid .normal) (closeStream sid s))
  /-- The list of the writes that wait. -/
  | rewait (ws : List PendingWrite) : GateChange s { s with pending := ws }

/-- A run of changes of DRAIN. -/
abbrev GateRun : State → State → Prop := Relation.ReflTransGen GateChange

theorem nextState_sendFin {a b : StreamState} (h : nextState a .sendFin = some b) :
    (a = .opened ∧ b = .halfClosedLocal) ∨ (a = .halfClosedRemote ∧ b = .closed) := by
  cases a <;> cases h <;> simp

theorem gateRun_finishLocal (sid : StreamId) (s : State) : GateRun s (finishLocal sid s) := by
  unfold finishLocal
  obtain h | ⟨r, st, hget, hst, h⟩ := orElseSame_transition sid .sendFin s <;> rw [h]
  · obtain ⟨hsame, -⟩ | ⟨r, hget, hclosed, hremoved⟩ := removeIfClosed_cases sid s
    · rw [hsame]
    · rw [hremoved]
      exact .single (.finish sid r hget (.inr hclosed))
  · obtain ⟨hopened, rfl⟩ | ⟨hremote, rfl⟩ := nextState_sendFin hst
    · have hstay : removeIfClosed sid (putStream sid { r with state := .halfClosedLocal } s) =
          putStream sid { r with state := .halfClosedLocal } s := by
        simp [removeIfClosed]
      rw [hstay]
      exact .single (.half sid r hget hopened)
    · have hgone : removeIfClosed sid (putStream sid { r with state := .closed } s) =
          emit (.onStreamClosed sid .normal) (closeStream sid s) := by
        simp [removeIfClosed, closeStream, putStream, tableErase_put]
      rw [hgone]
      exact .single (.finish sid r hget (.inl hremote))

theorem gateRun_drainWrite (turns : Nat) (sid : StreamId) (rem : Bytes) (fin : Bool) (s : State) :
    GateRun s (drainWrite turns sid rem fin s).1 := by
  cases hget : tableGet s.streams sid with
  | none => rw [drainWrite_of_unknown hget]
  | some r =>
    rw [drainWrite_eq_cut turns rem fin hget]
    have hcut := cutWrite_sound s.cfg.maxDataPayload.val turns (min r.sendWindow s.sessionSendWindow) rem
    have hpieces (last : Bool) := GateChange.pieces sid r last _ hget hcut.paid hcut.fits
    simp only [afterGate]
    split
    next => exact .head (hpieces true) (gateRun_finishLocal _ _)
    next => exact .single (hpieces false)

theorem gateRun_drainFrom (ws : List PendingWrite) (stuck : List StreamId) (s : State) :
    GateRun s (drainFrom ws stuck s).1 := by
  induction ws generalizing stuck s with
  | nil => exact .refl
  | cons w rest ih =>
    by_cases hstuck : w.sid ∈ stuck
    case pos =>
      rw [drainFrom_of_stuck hstuck]
      exact ih stuck s
    case neg =>
      have hrun := gateRun_drainWrite (w.bytes.length + 1) w.sid w.bytes w.fin s
      cases hgate : drainWrite (w.bytes.length + 1) w.sid w.bytes w.fin s with
      | mk u left =>
        rw [hgate] at hrun
        cases left with
        | none =>
          rw [drainFrom_of_done hstuck rest hgate]
          exact hrun.trans (ih stuck u)
        | some rem =>
          rw [drainFrom_of_left hstuck rest hgate]
          exact hrun.trans (ih _ u)

theorem gateRun_drain (s : State) : GateRun s (drain s) :=
  .tail (gateRun_drainFrom s.pending [] s) (.rewait _)

/-- A predicate that every change of DRAIN keeps is kept by DRAIN. -/
theorem drain_keeps {P : State → Prop} (hP : ∀ s t, GateChange s t → P s → P t) {s : State} (hs : P s) :
    P (drain s) := by
  have hrun := gateRun_drain s
  generalize drain s = t at hrun ⊢
  induction hrun with
  | refl => exact hs
  | tail _ hchange ih => exact hP _ _ hchange ih

/-! ### The changes of a step -/

/-- The session takes frames or commands: it is not closed, and between commands not faulted. -/
def Running (s : State) : Prop := s.mode ≠ .closed ∧ (s.phase = .idle → s.mode ≠ .fault)

theorem running_of_live {s : State} (h : ended s = false) : Running s := by
  have hno := mt ended_iff.2 (ne_true_of_eq_false h)
  exact ⟨fun hclosed => hno (.inl hclosed), fun _ hfault => hno (.inr hfault)⟩

/-- What a step other than a `Reset` does to the state, one change at a time. -/
inductive Change (s : State) : State → Prop
  | take (c : Command) (rest : List Command) (hinbox : s.inbox = c :: rest) :
      Change s { s with inbox := rest }
  | ret (result : Result) : Change s (ret result s)
  | buffer (chunk : Bytes) (hlive : ended s = false) :
      Change s { s with rxBuf := s.rxBuf ++ chunk, phase := .receiving }
  | cut (n : Nat) (hopen : s.mode ≠ .closed) : Change s (cutFrame n s)
  | frame (f : Instr) (t : State) (hrun : Running s)
      (htier : s.cfg.wf = true → f.tierOk s.cfg.params = true) (h : RxChange f s t) : Change s t
  | torn (status : Word32) (evs : List Event) (hrun : Running s) : Change s (tornDown status evs s)
  | fault (hidle : s.phase = .idle) (hlive : ended s = false) : Change s { s with mode := .fault }
  | ready (b : Bool) : Change s { s with txReady := b }
  | accept (sid : StreamId) (r : Stream) (bytes : Bytes) (fin : Bool) (hrun : Running s)
      (hget : tableGet s.streams sid = some r) (hsend : CanSend r) (hfin : r.localFinQueued = false) :
      Change s { s with
        pending := s.pending ++ [⟨sid, bytes, fin⟩]
        streams := if fin then tablePut s.streams sid { r with localFinQueued := true }
          else s.streams }
  | opens (sid : StreamId) (tier : Fin 8) (hrun : Running s) (hid : sid.toNat = s.nextStreamId)
      (hfresh : Fresh sid s) (htier : tier.val < nTiers s.cfg.version) :
      Change s (putStream sid { freshStream tier s with state := .opened }
        { s with nextStreamId := s.nextStreamId + 2 })
  | nextId (hroom : s.nextStreamId ≤ maxStreamId) :
      Change s { s with nextStreamId := s.nextStreamId + 2 }
  | syn (sid : StreamId) (tier : Fin 8) (hb : Bytes) (hrun : Running s)
      (htier : tier.val < nTiers s.cfg.version) (hlen : 10 + hb.length ≤ maxPayload) :
      Change s (enqueue sid (ourSyn s.cfg sid tier hb) s)
  | drain (hlive : ended s = false) : Change s (drain s)
  | send (f : Instr) (u : State) (buf : Bytes) (hrun : Running s) (hnext : next s = some (f, u)) :
      Change s (txItem (.txBytes buf) u)
  | tearDown (hmode : s.mode = .goingAway) (hleft : nothingLeft s = true) :
      Change s { txItem .txClose s with mode := .closed }

/-- A run of changes. -/
abbrev Changes : State → State → Prop := Relation.ReflTransGen Change

/-! ### The epilogue -/

theorem changes_pumpTurns {turns : Nat} {s t : State} (hrun : Running s)
    (h : pumpTurns turns s = .next t) : Changes s t := by
  induction turns generalizing s with
  | zero =>
    cases h
    exact .refl
  | succ turns ih =>
    unfold pumpTurns at h
    split at h
    next =>
      cases hnext : next s with
      | none =>
        rw [hnext] at h
        cases h
        exact .refl
      | some fu =>
        obtain ⟨f, u⟩ := fu
        rw [hnext] at h
        obtain ⟨v, hv, hpump⟩ := andThen_eq_next.1 h
        obtain ⟨buf, -, rfl⟩ := txFrame_eq_next.1 hv
        have hu := next_eq hnext
        have hrun' : Running (txItem (.txBytes buf) u) := by
          rw [hu]
          exact hrun
        exact .head (.send f u buf hrun hnext) (ih hrun' hpump)
    next =>
      cases h
      exact .refl

theorem changes_tearDownIfDone (s : State) : Changes s (tearDownIfDone s) := by
  unfold tearDownIfDone
  split
  next h => exact .single (.tearDown h.1 h.2)
  next => exact .refl

theorem changes_epilogue {s t : State} (h : epilogue s = .next t) : Changes s t := by
  cases hlive : ended s with
  | true =>
    rw [epilogue_of_ended hlive] at h
    cases h
    exact .refl
  | false =>
    obtain ⟨v, hv, rfl⟩ := epilogue_of_live hlive h
    have hrun : Running (drain s) := by
      rw [drain_eq]
      exact running_of_live hlive
    exact .head (.drain hlive) ((changes_pumpTurns hrun hv).trans (changes_tearDownIfDone v))

/-! ### Frames and the bodies of the commands -/

theorem RxChange.running {f : Instr} {s t : State} (h : RxChange f s t) (hrun : Running s) :
    Running t := by
  cases h with
  | tell | reply | record | remove | abort | finish | openPeer | seen | sessionCredit | limit =>
    exact hrun
  | queue =>
    rw [enqueue_eq]
    exact hrun
  | initialWindow _ _ _ hadjust =>
    obtain ⟨_, -, rfl⟩ := adjustInitialWindow_eq_ok.1 hadjust
    exact hrun
  | goingAway => exact ⟨nofun, fun _ => nofun⟩

/-- A run of changes by one frame, on a session that runs and goes on running. -/
theorem changes_rxRun {f : Instr} {s t : State} (hrun : Running s)
    (htier : s.cfg.wf = true → f.tierOk s.cfg.params = true) (h : RxRun f s t) :
    Changes s t ∧ Running t := by
  induction h with
  | refl => exact ⟨.refl, hrun⟩
  | @tail u v hu hchange ih =>
    obtain ⟨hchanges, hrun'⟩ := ih
    have hcfg := (rxRun_frame hu).cfg
    have hcfg := (rxRun_frame hu).cfg
    exact ⟨.tail hchanges (.frame f v hrun' (by rwa [hcfg]) hchange), hchange.running hrun'⟩

/-- A frame runs through, or ends in the session-fatal procedure. -/
theorem changes_exec {f : Instr} {s t : State} (hrun : Running s)
    (htier : s.cfg.wf = true → f.tierOk s.cfg.params = true) (h : exec f s = .next t) : Changes s t := by
  obtain ⟨u, hu, hend⟩ := exec_eq_next h
  obtain ⟨hchanges, hrun'⟩ := changes_rxRun hrun htier hu
  obtain rfl | ⟨cause, rfl⟩ := hend
  · exact hchanges
  · exact .tail hchanges (.torn _ _ hrun')

/-- The stream error procedure does what the RST_STREAM it sends would do here. -/
theorem changes_afterStreamError {s : State} {sid : StreamId} (hrun : Running s) (status : Word32)
    (reason : CloseReason) (hin : (tableGet s.streams sid).isSome = true) :
    Changes s (afterStreamError sid status reason s) :=
  (changes_rxRun (f := .rstStream (wireVersion s.cfg) 0 sid status) hrun (fun _ => rfl)
    (rxRun_streamError rfl hin status reason)).1

theorem nextStreamId_le {sid : StreamId} {s : State} (hid : sid.toNat = s.nextStreamId) :
    s.nextStreamId ≤ maxStreamId := by
  rw [← hid]
  exact Nat.le_of_lt_succ sid.isLt

/-- An idle record is opened without being fresh (log entry 9). -/
theorem changes_idleOpened {s : State} {sid : StreamId} {r : Stream} (hrun : Running s)
    (hget : tableGet s.streams sid = some r) (hidle : r.state = .idle) :
    Changes s (putStream sid { r with state := .opened } s) :=
  .single (.frame (.synReply 0 0 sid []) _ hrun (fun _ => rfl)
    (.record sid r _ rfl hget (recordKept_of_idle hidle _)))

theorem changes_commandBody {s u : State} (hlive : ended s = false) (h : CommandBody s u) :
    Changes s u := by
  have hrun := running_of_live hlive
  cases h with
  | ready b => exact .single (.ready b)
  | error sid status reason hin => exact changes_afterStreamError hrun status reason hin
  | accept sid r bytes fin hget hsend hfin =>
    exact .single (.accept sid r bytes fin hrun hget hsend hfin)
  | opens sid tier hb hid hfresh htier hlen =>
    exact .tail (.single (.opens sid tier hrun hid hfresh htier)) (.syn sid tier hb hrun htier hlen)
  | opensTaken sid tier hb hid hfresh htier hlen streams hstreams =>
    have hnext := Change.nextId (nextStreamId_le hid)
    obtain rfl | ⟨r, hget, hidle, rfl⟩ := hstreams
    · exact .tail (.single hnext) (.syn sid tier hb hrun htier hlen)
    · exact .tail (.head hnext (changes_idleOpened hrun hget hidle)) (.syn sid tier hb hrun htier hlen)

/-! ### A step -/

theorem changes_of_stepCase {s t : State} (h : StepCase s t) : Changes s t := by
  cases h with
  | waits => exact .refl
  | refused c rest result hidle hinbox => exact .tail (.single (.take c rest hinbox)) (.ret result)
  | faulted c rest result hidle hinbox hlive =>
    exact .tail (.tail (.single (.take c rest hinbox)) (.fault hidle hlive)) (.ret result)
  | buffered c rest chunk hidle hinbox hlive =>
    exact .tail (.single (.take c rest hinbox)) (.buffer chunk hlive)
  | closes c rest status hidle hinbox hlive =>
    exact .tail (.tail (.single (.take c rest hinbox))
      (.torn status _ (running_of_live (s := { s with inbox := rest }) hlive))) (.ret .ok)
  | runs c rest result u v hidle hinbox hlive hbody hepilogue =>
    have hchanges := changes_commandBody (s := { s with inbox := rest }) hlive hbody
    exact .head (.take c rest hinbox)
      (hchanges.trans (.tail (changes_epilogue hepilogue) (.ret result)))
  | received v hphase hend hepilogue => exact .tail (changes_epilogue hepilogue) (.ret .ok)
  | fatalTurn n cause hphase hopen =>
    exact .tail (.single (.cut n hopen))
      (.torn _ _ (s := cutFrame n s) ⟨hopen, fun hidle => absurd (hidle.symm.trans hphase) nofun⟩)
  | skipped n hphase hopen => exact .single (.cut n hopen)
  | frame n f t hphase hopen htier hexec =>
    exact .head (.cut n hopen) (changes_exec (s := cutFrame n s)
      ⟨hopen, fun hidle => absurd (hidle.symm.trans hphase) nofun⟩ (fun _ => htier) hexec)

theorem changes_of_step {s t : State} (hreset : resetsNext s = false) (h : step s = .next t) :
    Changes s t := changes_of_stepCase (stepCase hreset h)

/-- A predicate that every change keeps is kept by every step but a `Reset`. -/
theorem changes_keep {P : State → Prop} (hP : ∀ s t, Change s t → P s → P t) {s t : State}
    (h : Changes s t) (hs : P s) : P t := by
  induction h with
  | refl => exact hs
  | tail _ hchange ih => exact hP _ _ hchange ih

/-- A predicate that every change and every `Reset` keep is kept by every step. -/
theorem step_keeps {P : State → Prop} (hP : ∀ s t, Change s t → P s → P t)
    (hreset : ∀ c rest s, s.inbox = .reset c :: rest → P s → P (afterReset c rest s)) {s t : State}
    (hs : P s) (h : step s = .next t) : P t := by
  cases hnext : resetsNext s with
  | false => exact changes_keep hP (changes_of_step hnext h) hs
  | true =>
    obtain ⟨c, rest, hinbox, rfl⟩ := step_of_reset hnext h
    exact hreset c rest s hinbox hs

end Sys2Proof
end

section
/-! PROOF. The stream table and the ID registers: its invariant (O46), and that a used ID never comes
back (O56). `TableEvent` says once what a change does to them. -/

namespace Sys2Proof

open Machine

/-! ### What a change does to the table -/

/-- No stream is opened, no ID is used up, and every record left has its tier, and is live if it was. -/
structure TableStep (s t : State) : Prop where
  cfg : t.cfg = s.cfg
  nextStreamId : t.nextStreamId = s.nextStreamId
  lastPeerId : t.lastPeerId = s.lastPeerId
  lastGoodPeerId : t.lastGoodPeerId = s.lastGoodPeerId
  wf : tableWf s.streams = true → tableWf t.streams = true
  records : ∀ e ∈ t.streams, ∃ r, (e.1, r) ∈ s.streams ∧ e.2.tier = r.tier ∧ (Live r → Live e.2)
  gets : ∀ sid r, tableGet t.streams sid = some r →
    ∃ q, tableGet s.streams sid = some q ∧ r.tier = q.tier

/-- The table and the ID registers are not touched. -/
theorem tableStep_of_eq {s t : State} (hcfg : t.cfg = s.cfg) (hnext : t.nextStreamId = s.nextStreamId)
    (hpeer : t.lastPeerId = s.lastPeerId) (hgood : t.lastGoodPeerId = s.lastGoodPeerId)
    (hstreams : t.streams = s.streams) : TableStep s t where
  cfg := hcfg
  nextStreamId := hnext
  lastPeerId := hpeer
  lastGoodPeerId := hgood
  wf := fun h => hstreams ▸ h
  records := fun e he => ⟨e.2, hstreams ▸ he, rfl, id⟩
  gets := fun _ r hget => ⟨r, hstreams ▸ hget, rfl⟩

theorem TableStep.refl (s : State) : TableStep s s := tableStep_of_eq rfl rfl rfl rfl rfl

theorem TableStep.trans {s t u : State} (h : TableStep s t) (h' : TableStep t u) : TableStep s u where
  cfg := h'.cfg.trans h.cfg
  nextStreamId := h'.nextStreamId.trans h.nextStreamId
  lastPeerId := h'.lastPeerId.trans h.lastPeerId
  lastGoodPeerId := h'.lastGoodPeerId.trans h.lastGoodPeerId
  wf := h'.wf ∘ h.wf
  records := fun e he => by
    obtain ⟨q, hq, htier', hlive'⟩ := h'.records e he
    obtain ⟨r, hr, htier, hlive⟩ := h.records _ hq
    exact ⟨r, hr, htier'.trans htier, hlive' ∘ hlive⟩
  gets := fun sid r hget => by
    obtain ⟨q, hq, htier'⟩ := h'.gets sid r hget
    obtain ⟨p, hp, htier⟩ := h.gets sid q hq
    exact ⟨p, hp, htier'.trans htier⟩

/-- A record of the table is rewritten. -/
theorem tableStep_put {s : State} {sid : StreamId} {r r' : Stream}
    (hget : tableGet s.streams sid = some r) (htier : r'.tier = r.tier) (hlive : Live r → Live r') :
    TableStep s (putStream sid r' s) where
  cfg := rfl
  nextStreamId := rfl
  lastPeerId := rfl
  lastGoodPeerId := rfl
  wf := tableWf_put sid r'
  records := fun e he => by
    obtain rfl | he := mem_tablePut he
    · exact ⟨r, mem_of_tableGet hget, htier, hlive⟩
    · exact ⟨e.2, he, rfl, id⟩
  gets := fun k q hk => by
    simp only [putStream, tableGet_put] at hk
    split at hk
    next heq =>
      cases hk
      exact ⟨r, heq ▸ hget, htier⟩
    next => exact ⟨q, hk, rfl⟩

/-- A stream leaves the table. -/
theorem tableStep_close (sid : StreamId) (s : State) : TableStep s (closeStream sid s) where
  cfg := rfl
  nextStreamId := rfl
  lastPeerId := rfl
  lastGoodPeerId := rfl
  wf := tableWf_erase sid
  records := fun e he => ⟨e.2, (mem_tableErase.1 he).1, rfl, id⟩
  gets := fun k q hk => by
    simp only [closeStream, tableGet_erase] at hk
    split at hk
    next => cases hk
    next => exact ⟨q, hk, rfl⟩

/-- All streams leave the table. -/
theorem tableStep_torn (status : Word32) (evs : List Event) (s : State) :
    TableStep s (tornDown status evs s) where
  cfg := rfl
  nextStreamId := rfl
  lastPeerId := rfl
  lastGoodPeerId := rfl
  wf := fun _ => tableWf_nil
  records := nofun
  gets := nofun

/-- Every record is rewritten. -/
theorem tableStep_map {s t : State} {g : Stream → Stream} (hcfg : t.cfg = s.cfg)
    (hnext : t.nextStreamId = s.nextStreamId) (hpeer : t.lastPeerId = s.lastPeerId)
    (hgood : t.lastGoodPeerId = s.lastGoodPeerId) (hstreams : t.streams = tableMap g s.streams)
    (htier : ∀ r, (g r).tier = r.tier) (hlive : ∀ r, Live r → Live (g r)) : TableStep s t where
  cfg := hcfg
  nextStreamId := hnext
  lastPeerId := hpeer
  lastGoodPeerId := hgood
  wf := fun h => hstreams ▸ tableWf_map g h
  records := fun e he => by
    obtain ⟨r, hr, hgr⟩ := mem_tableMap.1 (hstreams ▸ he)
    exact ⟨r, hr, hgr ▸ htier r, hgr ▸ hlive r⟩
  gets := fun sid q hget => by
    rw [hstreams, tableGet_map, Option.map_eq_some_iff] at hget
    obtain ⟨r, hr, rfl⟩ := hget
    exact ⟨r, hr, htier r⟩

theorem GateChange.tableStep {s t : State} (h : GateChange s t) : TableStep s t := by
  cases h with
  | pieces sid r fin sent hget =>
    by_cases hsent : sent = []
    · subst hsent
      rw [queuePieces_nil]
      exact .refl s
    · have hput := tableStep_put (r' := { r with sendWindow := r.sendWindow - sent.flatten.length })
        hget rfl id
      refine hput.trans (tableStep_of_eq rfl rfl rfl rfl ?_)
      simp [queuePieces, hsent, putStream]
  | half sid r hget => exact tableStep_put hget rfl fun _ => .inr (.inl rfl)
  | finish sid => exact (tableStep_close sid s).trans (tableStep_of_eq rfl rfl rfl rfl rfl)
  | rewait => exact tableStep_of_eq rfl rfl rfl rfl rfl

theorem tableStep_drain (s : State) : TableStep s (drain s) :=
  drain_keeps (P := TableStep s) (fun _ _ hchange h => h.trans hchange.tableStep) (.refl s)

/-- What a change does to the table and the ID registers. -/
inductive TableEvent (s : State) : State → Prop
  | keeps (t : State) (h : TableStep s t) : TableEvent s t
  | opens (sid : StreamId) (tier : Fin 8) (hid : sid.toNat = s.nextStreamId) (hfresh : Fresh sid s)
      (htier : tier.val < nTiers s.cfg.version) :
      TableEvent s (putStream sid { freshStream tier s with state := .opened }
        { s with nextStreamId := s.nextStreamId + 2 })
  | nextId (hroom : s.nextStreamId ≤ maxStreamId) :
      TableEvent s { s with nextStreamId := s.nextStreamId + 2 }
  | openPeer (sid : StreamId) (tier : Fin 8) (hsid : sid ≠ 0) (hpeer : isLocal s.cfg.role sid = false)
      (hunseen : s.lastPeerId.toNat < sid.toNat)
      (htier : s.cfg.wf = true → tier.val < nTiers s.cfg.version) :
      TableEvent s (acceptPeer sid tier s)
  | seen (sid good : StreamId) (hunseen : s.lastPeerId.toNat ≤ sid.toNat)
      (hgood : good = s.lastGoodPeerId ∨ good = sid) :
      TableEvent s { s with lastPeerId := sid, lastGoodPeerId := good }

/-- The tier of a decoded SYN_STREAM of the session's version is one of that version (R99). -/
theorem tier_lt_of_tierOk {f : Instr} {c : Cfg} {tier : Fin 8} (hc : c.wf = true)
    (hok : f.tierOk c.params = true) (hver : f.ver? = some (wireVersion c))
    (htier : f.tier? = some tier) : tier.val < nTiers c.version := by
  obtain ⟨-, -, hp⟩ := Cfg.wf_iff.1 hc
  obtain ⟨hdistinct, -⟩ := Params.wf_iff.1 hp
  have hrevision : revisionOf c.params (wireVersion c) = some c.version :=
    revisionOf_versionTag hdistinct c.version
  simpa [Instr.tierOk, hver, htier, hrevision] using hok

theorem RxChange.tableEvent {f : Instr} {s t : State}
    (htier : s.cfg.wf = true → f.tierOk s.cfg.params = true) (h : RxChange f s t) : TableEvent s t := by
  cases h with
  | tell | reply | sessionCredit | limit | goingAway =>
    exact .keeps _ (tableStep_of_eq rfl rfl rfl rfl rfl)
  | queue sid g =>
    rw [enqueue_eq]
    exact .keeps _ (tableStep_of_eq rfl rfl rfl rfl rfl)
  | record sid r r' hf hget hkept => exact .keeps _ (tableStep_put hget hkept.tier hkept.live)
  | remove sid | abort sid =>
    rw [withoutStreams_one]
    exact .keeps _ ((tableStep_close sid s).trans (tableStep_of_eq rfl rfl rfl rfl rfl))
  | finish sid => exact .keeps _ ((tableStep_close sid s).trans (tableStep_of_eq rfl rfl rfl rfl rfl))
  | openPeer sid tier hf hsyn hver hsynTier hsid hpeer hunseen =>
    exact .openPeer sid tier hsid hpeer hunseen fun hc => tier_lt_of_tierOk hc (htier hc) hver hsynTier
  | seen sid good hsyn hunseen hgood => exact .seen sid good hunseen hgood
  | initialWindow v t hf hadjust =>
    obtain ⟨_, -, rfl⟩ := adjustInitialWindow_eq_ok.1 hadjust
    exact .keeps _ (tableStep_map
      (g := fun r => { r with sendWindow := r.sendWindow + (v.toNat - s.peerInitialWindow.val) })
      rfl rfl rfl rfl rfl (fun _ => rfl) fun _ => id)

theorem Change.tableEvent {s t : State} (h : Change s t) : TableEvent s t := by
  cases h with
  | take | ret | buffer | cut | fault | ready | tearDown =>
    exact .keeps _ (tableStep_of_eq rfl rfl rfl rfl rfl)
  | frame f _ _ htier hchange => exact hchange.tableEvent htier
  | torn status evs => exact .keeps _ (tableStep_torn status evs s)
  | accept sid r bytes fin hrun hget =>
    cases fin with
    | false => exact .keeps _ (tableStep_of_eq rfl rfl rfl rfl rfl)
    | true =>
      exact .keeps _ ((tableStep_put (r' := { r with localFinQueued := true }) hget rfl id).trans
        (tableStep_of_eq rfl rfl rfl rfl rfl))
  | opens sid tier hrun hid hfresh htier => exact .opens sid tier hid hfresh htier
  | nextId hroom => exact .nextId hroom
  | syn sid =>
    rw [enqueue_eq]
    exact .keeps _ (tableStep_of_eq rfl rfl rfl rfl rfl)
  | drain => exact .keeps _ (tableStep_drain s)
  | send f u buf hrun hnext =>
    rw [next_eq hnext]
    exact .keeps _ (tableStep_of_eq rfl rfl rfl rfl rfl)

/-! ### The invariant -/

theorem TableStep.tableInv {s t : State} (h : TableStep s t) (hinv : TableInv s) : TableInv t where
  canonical := h.wf hinv.canonical
  nonzero := fun e he => by
    obtain ⟨r, hr, -⟩ := h.records e he
    exact hinv.nonzero (e.1, r) hr
  localBelow := fun e he => by
    obtain ⟨r, hr, -⟩ := h.records e he
    rw [h.cfg, h.nextStreamId]
    exact hinv.localBelow (e.1, r) hr
  peerBelow := fun e he => by
    obtain ⟨r, hr, -⟩ := h.records e he
    rw [h.cfg, h.lastGoodPeerId]
    exact hinv.peerBelow (e.1, r) hr
  live := fun e he => by
    obtain ⟨r, hr, -, hlive⟩ := h.records e he
    exact hlive (hinv.live (e.1, r) hr)
  goodSeen := by
    rw [h.lastGoodPeerId, h.lastPeerId]
    exact hinv.goodSeen
  nextParity := by
    rw [h.nextStreamId, h.cfg]
    exact hinv.nextParity
  nextPositive := h.nextStreamId ▸ hinv.nextPositive
  nextBound := h.nextStreamId ▸ hinv.nextBound

/-- The next local ID is used up (R22). -/
theorem tableInv_nextId {s : State} (hinv : TableInv s) (hroom : s.nextStreamId ≤ maxStreamId) :
    TableInv { s with nextStreamId := s.nextStreamId + 2 } :=
  { hinv with
    localBelow := fun e he hlocal => Nat.lt_add_right 2 (hinv.localBelow e he hlocal)
    nextParity := by
      rw [Nat.add_mod_right]
      exact hinv.nextParity
    nextPositive := Nat.succ_pos _
    nextBound := Nat.add_le_add_right hroom 2 }

/-- A stream ID of the peer is seen (R23, R24). -/
theorem tableInv_seen {s : State} (hinv : TableInv s) {sid good : StreamId}
    (hunseen : s.lastPeerId.toNat ≤ sid.toNat) (hgood : good = s.lastGoodPeerId ∨ good = sid) :
    TableInv { s with lastPeerId := sid, lastGoodPeerId := good } := by
  have hold := hinv.goodSeen.trans hunseen
  have hbelow : s.lastGoodPeerId.toNat ≤ good.toNat := by
    obtain rfl | rfl := hgood
    · exact le_rfl
    · exact hold
  have hseen : good.toNat ≤ sid.toNat := by
    obtain rfl | rfl := hgood
    · exact hold
    · exact le_rfl
  exact { hinv with
    peerBelow := fun e he hpeer => (hinv.peerBelow e he hpeer).trans hbelow
    goodSeen := hseen }

/-- A record is written for an ID that the registers cover. -/
theorem tableInv_put {s : State} (hinv : TableInv s) {sid : StreamId} {r : Stream} (hsid : sid ≠ 0)
    (hlocal : isLocal s.cfg.role sid = true → sid.toNat < s.nextStreamId)
    (hpeer : isLocal s.cfg.role sid = false → sid.toNat ≤ s.lastGoodPeerId.toNat) (hlive : Live r) :
    TableInv (putStream sid r s) :=
  { hinv with
    canonical := tableWf_put sid r hinv.canonical
    nonzero := fun e he => by
      obtain rfl | he := mem_tablePut he
      · exact hsid
      · exact hinv.nonzero e he
    localBelow := fun e he => by
      obtain rfl | he := mem_tablePut he
      · exact hlocal
      · exact hinv.localBelow e he
    peerBelow := fun e he => by
      obtain rfl | he := mem_tablePut he
      · exact hpeer
      · exact hinv.peerBelow e he
    live := fun e he => by
      obtain rfl | he := mem_tablePut he
      · exact hlive
      · exact hinv.live e he }

theorem TableEvent.tableInv {s t : State} (h : TableEvent s t) (hinv : TableInv s) : TableInv t := by
  cases h with
  | keeps _ hstep => exact hstep.tableInv hinv
  | opens sid tier hid hfresh =>
    obtain ⟨hsid, hlocal, -⟩ := hfresh
    refine tableInv_put (tableInv_nextId hinv (nextStreamId_le hid)) hsid (fun _ => ?_)
      (fun hpeer => absurd (hlocal.symm.trans hpeer) nofun) (.inl rfl)
    rw [hid]
    exact Nat.lt_add_of_pos_right two_pos
  | nextId hroom => exact tableInv_nextId hinv hroom
  | openPeer sid tier hsid hpeer hunseen =>
    exact tableInv_put (s := { s with lastPeerId := sid, lastGoodPeerId := sid })
      (tableInv_seen hinv hunseen.le (.inr rfl)) hsid
      (fun hlocal => absurd (hpeer.symm.trans hlocal) nofun) (fun _ => le_rfl) (.inl rfl)
  | seen sid good hunseen hgood => exact tableInv_seen hinv hunseen hgood

theorem Change.tableInv {s t : State} (h : Change s t) (hinv : TableInv s) : TableInv t :=
  h.tableEvent.tableInv hinv

theorem tableInv_afterReset (c : Cfg) (rest : List Command) (s : State) :
    TableInv (afterReset c rest s) :=
  { tableInv_ofCfg c with }

/-- Settles O46. -/
theorem tableInvKept : Obligations.TableInvKept := by
  unfold Obligations.TableInvKept
  intro s t hs h
  exact step_keeps (fun _ _ hchange => hchange.tableInv)
    (fun c rest u _ _ => tableInv_afterReset c rest u) hs h

/-! ### Used IDs -/

theorem usedId_of_le {s t : State} {sid : StreamId} (hcfg : t.cfg = s.cfg)
    (hnext : s.nextStreamId ≤ t.nextStreamId) (hpeer : s.lastPeerId.toNat ≤ t.lastPeerId.toNat)
    (h : usedId s sid = true) : usedId t sid = true := by
  unfold usedId at h ⊢
  rw [hcfg]
  split
  next hlocal =>
    rw [if_pos hlocal] at h
    exact decide_eq_true ((of_decide_eq_true h).trans_le hnext)
  next hlocal =>
    rw [if_neg hlocal] at h
    exact decide_eq_true ((of_decide_eq_true h).trans hpeer)

/-- A used ID stays used. -/
theorem TableEvent.staysUsed {s t : State} (h : TableEvent s t) {sid : StreamId}
    (hused : usedId s sid = true) : usedId t sid = true := by
  cases h with
  | keeps _ hstep => exact usedId_of_le hstep.cfg hstep.nextStreamId.ge (by rw [hstep.lastPeerId]) hused
  | opens | nextId => exact usedId_of_le (s := s) rfl (Nat.le_add_right _ 2) le_rfl hused
  | openPeer sid tier hsid hpeer hunseen => exact usedId_of_le (s := s) rfl le_rfl hunseen.le hused
  | seen sid good hunseen => exact usedId_of_le (s := s) rfl le_rfl hunseen hused

theorem usedId_eq_false_of_next {s : State} {sid : StreamId} (hid : sid.toNat = s.nextStreamId)
    (hlocal : isLocal s.cfg.role sid = true) : usedId s sid = false := by
  rw [usedId, if_pos hlocal, hid, decide_eq_false (lt_irrefl _)]

theorem usedId_eq_false_of_unseen {s : State} {sid : StreamId} (hpeer : isLocal s.cfg.role sid = false)
    (hunseen : s.lastPeerId.toNat < sid.toNat) : usedId s sid = false := by
  rw [usedId, hpeer, if_neg Bool.false_ne_true, decide_eq_false hunseen.not_ge]

/-- A used ID that is not in the table does not enter it: only unused ones do. -/
theorem TableEvent.absent {s t : State} (h : TableEvent s t) {sid : StreamId}
    (hused : usedId s sid = true) (hget : tableGet s.streams sid = none) :
    tableGet t.streams sid = none := by
  have hnew {k : StreamId} (hunused : usedId s k = false) : k ≠ sid := by
    rintro rfl
    exact absurd (hused.symm.trans hunused) nofun
  cases h with
  | keeps _ hstep =>
    refine Option.eq_none_iff_forall_ne_some.2 fun r hr => ?_
    obtain ⟨q, hq, -⟩ := hstep.gets sid r hr
    rw [hget] at hq
    cases hq
  | opens k tier hid hfresh =>
    obtain ⟨-, hlocal, -⟩ := hfresh
    exact (tableGet_put_ne _ _ (hnew (usedId_eq_false_of_next hid hlocal))).trans hget
  | nextId | seen => exact hget
  | openPeer k tier hsid hpeer hunseen =>
    exact (tableGet_put_ne _ _ (hnew (usedId_eq_false_of_unseen hpeer hunseen))).trans hget

/-- Settles O56. The table invariant is not needed: an ID enters the table only when it is not used. -/
theorem removedIdStaysRemoved : Obligations.RemovedIdStaysRemoved := by
  unfold Obligations.RemovedIdStaysRemoved
  intro s t sid _ hreset h hused
  have hkept := changes_keep
    (P := fun u => usedId u sid = true ∧
      (tableGet s.streams sid = none → tableGet u.streams sid = none))
    (fun _ _ hchange ⟨hu, habsent⟩ => ⟨hchange.tableEvent.staysUsed hu,
      fun hget => hchange.tableEvent.absent hu (habsent hget)⟩)
    (changes_of_step hreset h) ⟨hused, id⟩
  exact hkept

end Sys2Proof
end

section
/-! PROOF. The flow-control windows stay in their ranges (O47; R27, R245). -/

namespace Sys2Proof

open Machine

/-- A record is written whose windows are in range. -/
theorem windowInv_put {s : State} (hinv : WindowInv s) (sid : StreamId) {r : Stream}
    (hr : StreamWindows s.cfg s.peerInitialWindow.val r) : WindowInv (putStream sid r s) :=
  { hinv with
    streams := fun e he => by
      obtain rfl | he := mem_tablePut he
      · exact hr
      · exact hinv.streams e he }

/-- Streams leave the table, credit comes back to the session. -/
theorem windowInv_without {s : State} (hinv : WindowInv s) (gone : List StreamId) :
    WindowInv (withoutStreams gone s) :=
  { hinv with
    sendAbove := le_min (by decide) (Int.add_nonneg hinv.sendAbove (Int.natCast_nonneg _))
    sendBelow := min_le_left _ _
    streams := fun e he => hinv.streams e (List.mem_filter.1 he).1 }

theorem windowInv_close {s : State} (hinv : WindowInv s) (sid : StreamId) :
    WindowInv (closeStream sid s) :=
  { hinv with
    streams := fun e he => hinv.streams e (mem_tableErase.1 he).1 }

theorem streamWindows_of_get {s : State} (hinv : WindowInv s) {sid : StreamId} {r : Stream}
    (hget : tableGet s.streams sid = some r) : StreamWindows s.cfg s.peerInitialWindow.val r :=
  hinv.streams _ (mem_of_tableGet hget)

/-- A new stream starts with the initial windows (R192). -/
theorem streamWindows_fresh (tier : Fin 8) (st : StreamState) (s : State) :
    StreamWindows s.cfg s.peerInitialWindow.val { freshStream tier s with state := st } where
  sendAbove := by simp [freshStream]
  sendBelow := by
    have := s.peerInitialWindow.isLt
    simp only [freshStream, maxWindow]
    omega
  recvAbove := Int.natCast_nonneg _
  recvBelow := le_rfl
  recvFull := fun _ => rfl

/-- A write that is paid for overdraws neither its stream nor the session. -/
theorem windowInv_queuePieces {s : State} (hinv : WindowInv s) {sid : StreamId} {r : Stream} (fin : Bool)
    {sent : List Bytes} (hget : tableGet s.streams sid = some r)
    (hpaid : sent ≠ [] → (sent.flatten.length : Int) ≤ min r.sendWindow s.sessionSendWindow) :
    WindowInv (queuePieces sid r fin sent s) := by
  by_cases hsent : sent = []
  case pos =>
    subst hsent
    rw [queuePieces_nil]
    exact hinv
  case neg =>
    obtain ⟨hstream, hsession⟩ := le_min_iff.1 (hpaid hsent)
    have hcost := Int.natCast_nonneg sent.flatten.length
    have hr := streamWindows_of_get hinv hget
    have hr' : StreamWindows s.cfg s.peerInitialWindow.val
        { r with sendWindow := r.sendWindow - sent.flatten.length } :=
      { hr with
        sendAbove := by
          have := s.peerInitialWindow.isLt
          simp only [maxWindow]
          omega
        sendBelow := (Int.sub_le_self _ hcost).trans hr.sendBelow }
    have hput := windowInv_put hinv sid hr'
    exact { hinv with
      sendAbove := Int.sub_nonneg_of_le hsession
      sendBelow := (Int.sub_le_self _ hcost).trans hinv.sendBelow
      streams := by
        simp only [queuePieces, if_neg hsent]
        exact hput.streams }

theorem GateChange.windowInv {s t : State} (h : GateChange s t) (hinv : WindowInv s) : WindowInv t := by
  cases h with
  | pieces sid r fin sent hget hpaid => exact windowInv_queuePieces hinv fin hget hpaid
  | half sid r hget hopened =>
    have hr := streamWindows_of_get hinv hget
    exact windowInv_put hinv sid { hr with recvFull := fun _ => hr.recvFull (.inl hopened) }
  | finish sid => exact { windowInv_close hinv sid with }
  | rewait => exact { hinv with }

/-- The windows move with the initial window, and stay as far from it as they were (R240). -/
theorem windowInv_adjust {v : Word32} {s t : State} (hinv : WindowInv s)
    (h : adjustInitialWindow v s = .ok t) : WindowInv t := by
  obtain ⟨hv, hfits, rfl⟩ := adjustInitialWindow_eq_ok.1 h
  refine { hinv with streams := fun e he => ?_ }
  simp only [mem_tableMap] at he
  obtain ⟨r, hr, hmoved⟩ := he
  have hwindows := hinv.streams _ hr
  have hbelow := hfits _ hr
  rw [← hmoved]
  exact { hwindows with
    sendAbove := by
      have := hwindows.sendAbove
      simp only at this ⊢
      omega
    sendBelow := hbelow }

theorem RxChange.windowInv {f : Instr} {s t : State} (h : RxChange f s t) (htable : TableInv s)
    (hinv : WindowInv s) : WindowInv t := by
  cases h with
  | tell | reply | limit | goingAway | seen => exact { hinv with }
  | queue sid g =>
    rw [enqueue_eq]
    exact { hinv with }
  | record sid r r' hf hget hkept =>
    have hlive : Live r := htable.live _ (mem_of_tableGet hget)
    exact windowInv_put hinv sid (hkept.windows hlive _ _ (streamWindows_of_get hinv hget))
  | remove sid | abort sid => exact { windowInv_without hinv [sid] with }
  | finish sid => exact { windowInv_close hinv sid with }
  | openPeer sid tier => exact { windowInv_put hinv sid (streamWindows_fresh tier .opened s) with }
  | sessionCredit n hf hfits =>
    exact { hinv with
      sendAbove := Int.add_nonneg hinv.sendAbove (Int.natCast_nonneg n)
      sendBelow := hfits }
  | initialWindow v t hf hadjust => exact windowInv_adjust hinv hadjust

theorem Change.windowInv {s t : State} (h : Change s t) (htable : TableInv s) (hinv : WindowInv s) :
    WindowInv t := by
  cases h with
  | take | ret | buffer | cut | fault | ready | nextId | tearDown => exact { hinv with }
  | frame f _ _ _ hchange => exact hchange.windowInv htable hinv
  | torn => exact { hinv with streams := nofun }
  | accept sid r bytes fin hrun hget =>
    cases fin with
    | false => exact { hinv with }
    | true =>
      have hr := streamWindows_of_get hinv hget
      have hr' : StreamWindows s.cfg s.peerInitialWindow.val { r with localFinQueued := true } :=
        { hr with }
      exact { windowInv_put hinv sid hr' with }
  | opens sid tier => exact { windowInv_put hinv sid (streamWindows_fresh tier .opened s) with }
  | syn sid =>
    rw [enqueue_eq]
    exact { hinv with }
  | drain => exact drain_keeps (fun _ _ hchange => hchange.windowInv) hinv
  | send f u buf hrun hnext =>
    rw [next_eq hnext]
    exact { hinv with }

/-- Settles O47. -/
theorem windowInvKept : Obligations.WindowInvKept := by
  unfold Obligations.WindowInvKept
  intro s t htable hwindow h
  have hkept := step_keeps (P := fun u => TableInv u ∧ WindowInv u)
    (fun _ _ hchange ⟨hu, hw⟩ => ⟨hchange.tableInv hu, hchange.windowInv hu hw⟩)
    (fun c rest u _ _ => ⟨tableInv_afterReset c rest u, { windowInv_ofCfg c with }⟩) ⟨htable, hwindow⟩ h
  exact hkept.2

end Sys2Proof
end

section
/-! PROOF. What waits in the scheduler: every waiting frame becomes bytes (O48), so no step stops (O54);
the frames of a stream wait in the queue of its tier (O51), and tiers are those of the session's version
(O52). `QueueStep` says once what a change queues. -/

namespace Sys2Proof

open Machine

/-! ### The frames this side queues on a stream become bytes (R178) -/

theorem encodable_ourSyn {c : Cfg} (hc : c.wf = true) (sid : StreamId) {tier : Fin 8} {hb : Bytes}
    (htier : tier.val < nTiers c.version) (hlen : 10 + hb.length ≤ maxPayload) :
    Encodable c (ourSyn c sid tier hb) := by
  obtain ⟨-, -, hp⟩ := Cfg.wf_iff.1 hc
  obtain ⟨hdistinct, -⟩ := Params.wf_iff.1 hp
  have hrevision : revisionOf c.params (wireVersion c) = some c.version :=
    revisionOf_versionTag hdistinct c.version
  have henc := encode_control (f := ourSyn c sid tier hb) (k := .synStream) (p := c.params) c.build
    (withinMask_zero _) hlen rfl rfl
  rw [hrevision, Option.elim_some] at henc
  simp only [ourSyn, encodePayload, priorityByte_of_lt c.build htier, Option.map_some,
    Option.elim_some] at henc
  exact ⟨_, henc⟩

theorem encodable_data {c : Cfg} (hc : c.wf = true) (sid : StreamId) (last : Bool) {payload : Bytes}
    (hlen : payload.length ≤ c.maxDataPayload.val) :
    Encodable c (.data sid (if last then c.params.flagFin else 0) payload) := by
  obtain ⟨-, -, hp⟩ := Cfg.wf_iff.1 hc
  have hlegal :
      flagsLegal c.params (.data sid (if last then c.params.flagFin else 0) payload) = true := by
    cases last with
    | false => exact withinMask_zero _
    | true => exact withinMask_fin_data hp
  exact ⟨_, encode_data c.build hlegal (hlen.trans (Nat.le_of_lt_succ c.maxDataPayload.isLt))⟩

theorem of_mem_pieceFrames {c : Cfg} {sid : StreamId} {fin : Bool} {pieces : List Bytes} {e : QueueEntry}
    (he : e ∈ pieceFrames c sid fin pieces) : ∃ b ∈ pieces, ∃ last : Bool,
      e = (sid, .data sid (if last then c.params.flagFin else 0) b) := by
  obtain ⟨⟨b, i⟩, hmem, rfl⟩ := List.mem_map.1 he
  have hb : b ∈ pieces := by
    have := List.mem_map_of_mem (f := Prod.fst) hmem
    rwa [List.zipIdx_map_fst] at this
  exact ⟨b, hb, decide (fin = true ∧ i + 1 = pieces.length), by simp⟩

/-! ### What a change queues -/

/-- What waits after a change waited before, or is a frame that becomes bytes; one on a tier queue is
of a stream of that tier (R221). -/
structure QueueStep (s t : State) : Prop where
  urgent : ∀ f ∈ t.urgent, f ∈ s.urgent ∨ Encodable s.cfg f
  tiers : ∀ i : Fin 8, ∀ e ∈ t.tierq[i], e ∈ s.tierq[i] ∨
    (∃ r, tableGet s.streams e.1 = some r ∧ r.tier = i) ∧ (s.cfg.wf = true → Encodable s.cfg e.2)

/-- Nothing is queued; some frames may leave. -/
theorem queueStep_of_subset {s t : State} (hurgent : t.urgent ⊆ s.urgent)
    (htiers : ∀ i : Fin 8, t.tierq[i] ⊆ s.tierq[i]) : QueueStep s t :=
  ⟨fun _ hf => .inl (hurgent hf), fun i _ he => .inl (htiers i he)⟩

theorem queueStep_of_eq {s t : State} (hurgent : t.urgent = s.urgent) (htierq : t.tierq = s.tierq) :
    QueueStep s t :=
  queueStep_of_subset (hurgent ▸ List.Subset.refl _) fun i => by rw [htierq]; exact List.Subset.refl _

theorem queueStep_enqueue {s : State} (sid : StreamId) {g : Instr}
    (hg : s.cfg.wf = true → Encodable s.cfg g) : QueueStep s (enqueue sid g s) := by
  obtain ⟨-, h⟩ | ⟨r, hget, h⟩ := enqueue_cases sid g s <;> rw [h]
  · exact queueStep_of_eq rfl rfl
  · refine ⟨fun _ hf => .inl hf, fun i e he => ?_⟩
    rw [setQueue_getElem] at he
    split at he
    next htier =>
      obtain hold | hnew := List.mem_append.1 he
      · exact .inl (htier ▸ hold)
      · obtain rfl := List.mem_singleton.1 hnew
        exact .inr ⟨⟨r, hget, htier⟩, hg⟩
    next => exact .inl he

/-- Streams leave with all that waits for them. -/
theorem queueStep_without (gone : List StreamId) (s : State) : QueueStep s (withoutStreams gone s) := by
  refine queueStep_of_subset (List.Subset.refl _) fun i => ?_
  simp only [withoutStreams, Fin.getElem_fin, mapQueues_getElem]
  exact List.filter_subset_self _

theorem queueStep_send {s u : State} {f : Instr} (h : next s = some (f, u)) : QueueStep s u := by
  unfold next at h
  split at h
  next rest hurgent =>
    cases h
    exact queueStep_of_subset (by rw [hurgent]; exact List.subset_cons_self _ _)
      fun i => List.Subset.refl _
  next =>
    split at h
    next => cases h
    next t hfirst =>
      split at h
      next => cases h
      next e rest hqueue =>
        cases h
        refine queueStep_of_subset (List.Subset.refl _) fun i => ?_
        rw [setQueue_getElem]
        split
        next htier =>
          subst htier
          rw [hqueue]
          exact List.subset_cons_self _ _
        next => exact List.Subset.refl _

theorem queueStep_torn (status : Word32) (evs : List Event) (s : State) :
    QueueStep s (tornDown status evs s) :=
  ⟨nofun, fun i e he => absurd he (not_mem_emptyQueues i e)⟩

/-- DRAIN may change tables and queues in turn, so the tiers are carried back to the first table. -/
theorem QueueStep.trans {s t u : State} (h : QueueStep s t) (htable : TableStep s t)
    (h' : QueueStep t u) : QueueStep s u where
  urgent := fun f hf => (h'.urgent f hf).elim (h.urgent f) fun hf => .inr (htable.cfg ▸ hf)
  tiers := fun i e he => by
    obtain hold | ⟨⟨r, hget, htier⟩, henc⟩ := h'.tiers i e he
    · exact h.tiers i e hold
    · obtain ⟨q, hq, hsame⟩ := htable.gets _ _ hget
      rw [htable.cfg] at henc
      exact .inr ⟨⟨q, hq, hsame.symm.trans htier⟩, henc⟩

theorem GateChange.queueStep {s t : State} (h : GateChange s t) : QueueStep s t := by
  cases h with
  | pieces sid r fin sent hget hpaid hfits =>
    refine ⟨fun _ hf => .inl hf, fun i e he => ?_⟩
    rw [queuePieces_tierq] at he
    refine (List.mem_append.1 he).imp_right fun hnew => ?_
    split at hnew
    next htier =>
      obtain ⟨b, hb, last, rfl⟩ := of_mem_pieceFrames hnew
      exact ⟨⟨r, hget, htier⟩, fun hc => encodable_data hc sid last (hfits b hb)⟩
    next => cases hnew
  | half | finish | rewait => exact queueStep_of_eq rfl rfl

theorem queueStep_drain (s : State) : QueueStep s (drain s) := by
  have hkept := drain_keeps (P := fun u => TableStep s u ∧ QueueStep s u)
    (fun _ _ hchange ⟨htable, hqueue⟩ =>
      ⟨htable.trans hchange.tableStep, hqueue.trans htable hchange.queueStep⟩)
    ⟨.refl s, queueStep_of_eq rfl rfl⟩
  exact hkept.2

theorem RxChange.queueStep {f : Instr} {s t : State} (h : RxChange f s t) : QueueStep s t := by
  cases h with
  | tell | record | finish | openPeer | seen | sessionCredit | limit | goingAway =>
    exact queueStep_of_eq rfl rfl
  | reply g hg =>
    refine ⟨fun f hf => ?_, fun i e he => .inl he⟩
    obtain hold | hnew := List.mem_append.1 hf
    · exact .inl hold
    · obtain rfl := List.mem_singleton.1 hnew
      exact .inr hg
  | queue sid g hf hg => exact queueStep_enqueue sid fun _ => hg
  | remove sid | abort sid =>
    have hstep := queueStep_without [sid] s
    exact ⟨hstep.urgent, hstep.tiers⟩
  | initialWindow v t hf hadjust =>
    obtain ⟨_, -, rfl⟩ := adjustInitialWindow_eq_ok.1 hadjust
    exact queueStep_of_eq rfl rfl

theorem Change.queueStep {s t : State} (h : Change s t) : QueueStep s t := by
  cases h with
  | take | ret | buffer | cut | fault | ready | accept | opens | nextId | tearDown =>
    exact queueStep_of_eq rfl rfl
  | frame f _ _ _ hchange => exact hchange.queueStep
  | torn status evs => exact queueStep_torn status evs s
  | syn sid tier hb hrun htier hlen =>
    exact queueStep_enqueue sid fun hc => encodable_ourSyn hc sid htier hlen
  | drain => exact queueStep_drain s
  | send f u buf hrun hnext =>
    have hstep := queueStep_send hnext
    exact ⟨hstep.urgent, hstep.tiers⟩

/-! ### The configuration -/

theorem RxChange.config {f : Instr} {s t : State} (h : RxChange f s t) :
    t.cfg = s.cfg ∧ t.inbox = s.inbox := ⟨h.frame.cfg, h.frame.inbox⟩

/-- The configuration stays, commands only leave the inbox. -/
theorem Change.config {s t : State} (h : Change s t) : t.cfg = s.cfg ∧ t.inbox ⊆ s.inbox := by
  cases h with
  | take c rest hinbox => exact ⟨rfl, by rw [hinbox]; exact List.subset_cons_self _ _⟩
  | ret | buffer | cut | fault | ready | accept | opens | nextId | tearDown | torn =>
    exact ⟨rfl, List.Subset.refl _⟩
  | frame f _ _ _ hchange =>
    obtain ⟨hcfg, hinbox⟩ := hchange.config
    exact ⟨hcfg, hinbox ▸ List.Subset.refl _⟩
  | syn sid =>
    rw [enqueue_eq]
    exact ⟨rfl, List.Subset.refl _⟩
  | drain =>
    rw [drain_eq]
    exact ⟨rfl, List.Subset.refl _⟩
  | send f u buf hrun hnext =>
    rw [next_eq hnext]
    exact ⟨rfl, List.Subset.refl _⟩

theorem Change.configInv {s t : State} (h : Change s t) (hinv : ConfigInv s) : ConfigInv t := by
  obtain ⟨hcfg, hinbox⟩ := h.config
  exact ⟨hcfg ▸ hinv.cfg, fun c hc => hinv.inbox c (hinbox hc)⟩

/-- A `Reset` that waits installs a legal configuration. -/
theorem configInv_afterReset {c : Cfg} {rest : List Command} {s : State}
    (hinbox : s.inbox = .reset c :: rest) (hinv : ConfigInv s) :
    c.wf = true ∧ ConfigInv (afterReset c rest s) := by
  have hc : c.wf = true := hinv.inbox c (by rw [hinbox]; exact List.mem_cons_self)
  refine ⟨hc, hc, fun c' hc' => hinv.inbox c' ?_⟩
  rw [hinbox]
  exact List.mem_cons_of_mem _ hc'

/-! ### Every waiting frame becomes bytes -/

theorem queueInv_iff {s : State} : QueueInv s ↔ ConfigInv s ∧ (∀ f ∈ s.urgent, Encodable s.cfg f) ∧
    ∀ i : Fin 8, ∀ e ∈ s.tierq[i], Encodable s.cfg e.2 := by
  have htiers : (∀ q ∈ s.tierq.toList, ∀ e ∈ q, Encodable s.cfg e.2) ↔
      ∀ i : Fin 8, ∀ e ∈ s.tierq[i], Encodable s.cfg e.2 := by
    refine ⟨fun h i e he => h _ (by simp [Vector.mem_toList_iff]) e he, fun h q hq e he => ?_⟩
    obtain ⟨i, hi, rfl⟩ := Vector.mem_iff_getElem.1 (Vector.mem_toList_iff.1 hq)
    exact h ⟨i, hi⟩ e he
  exact ⟨fun ⟨hconfig, hurgent, hqueues⟩ => ⟨hconfig, hurgent, htiers.1 hqueues⟩,
    fun ⟨hconfig, hurgent, hqueues⟩ => ⟨hconfig, hurgent, htiers.2 hqueues⟩⟩

theorem QueueStep.queueInv {s t : State} (h : QueueStep s t) (hcfg : t.cfg = s.cfg)
    (hconfig : ConfigInv t) (hinv : QueueInv s) : QueueInv t := by
  obtain ⟨hconfig', hurgent, htiers⟩ := queueInv_iff.1 hinv
  rw [queueInv_iff, hcfg]
  exact ⟨hconfig, fun f hf => (h.urgent f hf).elim (hurgent f) id,
    fun i e he => (h.tiers i e he).elim (htiers i e) fun hnew => hnew.2 hconfig'.cfg⟩

theorem Change.queueInv {s t : State} (h : Change s t) (hinv : QueueInv s) : QueueInv t :=
  h.queueStep.queueInv h.config.1 (h.configInv hinv.config) hinv

theorem queueInv_afterReset {c : Cfg} {rest : List Command} {s : State}
    (hinbox : s.inbox = .reset c :: rest) (hinv : QueueInv s) : QueueInv (afterReset c rest s) := by
  obtain ⟨hc, hconfig⟩ := configInv_afterReset hinbox hinv.config
  exact { queueInv_ofCfg hc with config := hconfig }

/-- Settles O48. -/
theorem queueInvKept : Obligations.QueueInvKept := by
  unfold Obligations.QueueInvKept
  intro s t hs h
  exact step_keeps (fun _ _ hchange => hchange.queueInv) (fun _ _ _ => queueInv_afterReset) hs h

/-! ### No step stops -/

/-- The pump answers when every waiting frame becomes bytes. -/
theorem pump_answers {s : State} (hinv : QueueInv s) : ∃ t, pump s = .next t := by
  cases hready : s.txReady with
  | false => exact ⟨s, pumpTurns_of_blocked hready _⟩
  | true =>
    have hall : ∀ f ∈ sendOrder s, Encodable s.cfg f := by
      intro f hf
      obtain hurgent | htiers := List.mem_append.1 hf
      · exact hinv.urgent f hurgent
      · obtain ⟨e, he, rfl⟩ := List.mem_map.1 htiers
        obtain ⟨q, hq, he⟩ := List.mem_flatten.1 he
        exact hinv.tiers q hq e he
    exact ⟨_, by rw [pump, ← length_sendOrder]; exact pumpTurns_of_ready hready hall⟩

theorem epilogue_answers {s : State} (hinv : QueueInv s) : ∃ t, epilogue s = .next t := by
  cases hlive : ended s with
  | true => exact ⟨s, epilogue_of_ended hlive⟩
  | false =>
    obtain ⟨v, hv⟩ := pump_answers ((Change.drain hlive).queueInv hinv)
    exact ⟨tearDownIfDone v, by rw [epilogue, hlive, if_neg Bool.false_ne_true, hv, andThen_next]⟩

theorem commandEnds_answers {s : State} (hinv : QueueInv s) {o : Outcome} (h : CommandEnds s o) :
    ∃ t, o = .next t := by
  cases h with
  | refused | faulted | buffered | closes => exact ⟨_, rfl⟩
  | runs result u hlive hbody =>
    obtain ⟨v, hv⟩ := epilogue_answers
      (changes_keep (fun _ _ hchange => hchange.queueInv) (changes_commandBody hlive hbody) hinv)
    exact ⟨_, by rw [hv, andThen_next]⟩

theorem decodeFailed_answers (p : Params) (F : Bytes) {e : DecodeError} (h : decode p F = .error e)
    (s : State) : ∃ t, decodeFailed e s = .next t := by
  cases e with
  | unknownFrameType => exact ⟨s, rfl⟩
  | malformed | illegalBits | unknownVersion => exact ⟨_, fatal_eq _ s⟩
  | outOfBounds =>
    obtain ⟨hbounds, -⟩ := decodeStaysInBounds p F
    exact absurd h hbounds

theorem receiveTurn_answers {s : State} (hinv : QueueInv s) : ∃ t, receiveTurn s = .next t := by
  have hfinish : ∃ t, finishReceive s = .next t := by
    obtain ⟨v, hv⟩ := epilogue_answers hinv
    exact ⟨_, by rw [finishReceive_eq, hv, andThen_next]⟩
  unfold receiveTurn
  dsimp only
  split
  next => exact hfinish
  next =>
    split
    next => exact hfinish
    next =>
      split
      next => exact ⟨_, fatal_eq _ s⟩
      next =>
        split
        next => exact hfinish
        next =>
          split
          next f _ => exact everyFrameAnswers f _
          next e hdecode => exact decodeFailed_answers _ _ hdecode _

/-- Settles O54. Only the pump could stop, and what it sends becomes bytes. -/
theorem stepNeverStops : Obligations.StepNeverStops := by
  unfold Obligations.StepNeverStops
  intro s hinv
  cases hphase : s.phase with
  | receiving =>
    rw [step_of_receiving hphase]
    exact receiveTurn_answers hinv
  | idle =>
    cases hinbox : s.inbox with
    | nil => exact ⟨s, by simp only [step, hphase, takeCommand, hinbox]⟩
    | cons c rest =>
      rw [step_of_command hphase hinbox]
      have htaken := (Change.take c rest hinbox).queueInv hinv
      by_cases hreset : ∃ cfg, c = .reset cfg
      case pos =>
        obtain ⟨cfg, rfl⟩ := hreset
        exact ⟨_, rfl⟩
      case neg => exact commandEnds_answers htaken (runCommand_ends c (not_exists.1 hreset) _)

/-! ### The queue of a stream's tier -/

/-- The clauses of the tier invariant about a queue entry that is new, or was there before. -/
theorem tierInv_of_steps {s t : State} (hevent : TableEvent s t) (hqueue : QueueStep s t)
    (hinv : TierInv s)
    (htier : ∀ k r, tableGet t.streams k = some r → usedId s k = true →
      ∃ q, tableGet s.streams k = some q ∧ r.tier = q.tier)
    (htable : ∀ k r, tableGet t.streams k = some r → usedId t k = true) : TierInv t where
  oneQueue := fun i e he r hr => by
    obtain hold | ⟨⟨p, hp, htierp⟩, -⟩ := hqueue.tiers i e he
    · obtain ⟨q, hq, hsame⟩ := htier e.1 r hr (hinv.queuedUsed i e hold)
      exact hsame.trans (hinv.oneQueue i e hold q hq)
    · obtain ⟨q, hq, hsame⟩ := htier e.1 r hr (hinv.tableUsed e.1 p hp)
      rw [hp] at hq
      cases hq
      exact hsame.trans htierp
  queuedUsed := fun i e he => by
    obtain hold | ⟨⟨p, hp, -⟩, -⟩ := hqueue.tiers i e he
    · exact hevent.staysUsed (hinv.queuedUsed i e hold)
    · exact hevent.staysUsed (hinv.tableUsed e.1 p hp)
  tableUsed := htable

/-- A new stream has an ID that was not used, so nothing waits for it yet. -/
theorem tierInv_of_opening {s t : State} {sid : StreamId} {r : Stream} (hevent : TableEvent s t)
    (hqueue : QueueStep s t) (hinv : TierInv s) (hstreams : t.streams = tablePut s.streams sid r)
    (hunused : usedId s sid = false) (hused : usedId t sid = true) : TierInv t := by
  refine tierInv_of_steps hevent hqueue hinv (fun k q hq hk => ?_) (fun k q hq => ?_)
  · have hne : sid ≠ k := by
      rintro rfl
      exact absurd (hk.symm.trans hunused) nofun
    rw [hstreams, tableGet_put_ne _ _ hne] at hq
    exact ⟨q, hq, rfl⟩
  · rw [hstreams, tableGet_put] at hq
    split at hq
    next heq => exact heq ▸ hused
    next => exact hevent.staysUsed (hinv.tableUsed k q hq)

theorem tierInv_of_sameTable {s t : State} (hevent : TableEvent s t) (hqueue : QueueStep s t)
    (hinv : TierInv s) (hgets : ∀ k r, tableGet t.streams k = some r →
      ∃ q, tableGet s.streams k = some q ∧ r.tier = q.tier) : TierInv t :=
  tierInv_of_steps hevent hqueue hinv (fun k r hr _ => hgets k r hr) fun k r hr => by
    obtain ⟨q, hq, -⟩ := hgets k r hr
    exact hevent.staysUsed (hinv.tableUsed k q hq)

theorem TableEvent.tierInv {s t : State} (h : TableEvent s t) (hqueue : QueueStep s t)
    (hinv : TierInv s) : TierInv t := by
  have hevent := h
  cases h with
  | keeps _ hstep => exact tierInv_of_sameTable hevent hqueue hinv hstep.gets
  | opens sid tier hid hfresh =>
    obtain ⟨-, hlocal, -⟩ := hfresh
    refine tierInv_of_opening hevent hqueue hinv rfl (usedId_eq_false_of_next hid hlocal) ?_
    have hlocal' : isLocal (putStream sid { freshStream tier s with state := .opened }
        { s with nextStreamId := s.nextStreamId + 2 }).cfg.role sid = true := hlocal
    rw [usedId, if_pos hlocal']
    exact decide_eq_true (hid ▸ Nat.lt_add_of_pos_right two_pos)
  | nextId | seen =>
    exact tierInv_of_sameTable hevent hqueue hinv fun _ r hr => ⟨r, hr, rfl⟩
  | openPeer sid tier hsid hpeer hunseen =>
    refine tierInv_of_opening hevent hqueue hinv rfl (usedId_eq_false_of_unseen hpeer hunseen) ?_
    have hpeer' : isLocal (acceptPeer sid tier s).cfg.role sid = false := hpeer
    rw [usedId, hpeer', if_neg Bool.false_ne_true]
    exact decide_eq_true le_rfl

/-- Settles O51. -/
theorem tierInvKept : Obligations.TierInvKept := by
  unfold Obligations.TierInvKept
  intro s t _ hs h
  exact step_keeps (fun _ _ hchange => hchange.tableEvent.tierInv hchange.queueStep)
    (fun c _ _ _ _ => { tierInv_ofCfg c with }) hs h

/-! ### The tiers of the session's version -/

theorem TableEvent.revisionRecords {s t : State} (h : TableEvent s t) (hinv : RevisionInv s) :
    ∀ e ∈ t.streams, e.2.tier.val < nTiers s.cfg.version := by
  intro e he
  cases h with
  | keeps _ hstep =>
    obtain ⟨r, hr, htier, -⟩ := hstep.records e he
    rw [htier]
    exact hinv.records _ hr
  | opens sid tier hid hfresh htier =>
    obtain rfl | hold := mem_tablePut he
    · exact htier
    · exact hinv.records e hold
  | nextId | seen => exact hinv.records e he
  | openPeer sid tier hsid hpeer hunseen htier =>
    obtain rfl | hold := mem_tablePut he
    · exact htier hinv.config.cfg
    · exact hinv.records e hold

theorem Change.revisionInv {s t : State} (h : Change s t) (hinv : RevisionInv s) : RevisionInv t where
  config := h.configInv hinv.config
  records := by
    rw [h.config.1]
    exact h.tableEvent.revisionRecords hinv
  queues := fun i hi => by
    rw [h.config.1] at hi
    refine List.eq_nil_iff_forall_not_mem.2 fun e he => ?_
    obtain hold | ⟨⟨r, hget, htier⟩, -⟩ := h.queueStep.tiers i e he
    · rw [hinv.queues i hi] at hold
      cases hold
    · have hlt := hinv.records _ (mem_of_tableGet hget)
      rw [htier] at hlt
      exact absurd hi hlt.not_ge

theorem revisionInv_afterReset {c : Cfg} {rest : List Command} {s : State}
    (hinbox : s.inbox = .reset c :: rest) (hinv : RevisionInv s) :
    RevisionInv (afterReset c rest s) := by
  obtain ⟨hc, hconfig⟩ := configInv_afterReset hinbox hinv.config
  exact { revisionInv_ofCfg hc with config := hconfig }

/-- Settles O52. -/
theorem revisionInvKept : Obligations.RevisionInvKept := by
  unfold Obligations.RevisionInvKept
  intro s t hs h
  exact step_keeps (fun _ _ hchange => hchange.revisionInv) (fun _ _ _ => revisionInv_afterReset) hs h

end Sys2Proof
end

section
/-! PROOF. The mode and the GOAWAY status, the emptiness of a closed session, and what holds between
commands (O49); the changes of mode (O55); and the one TxClose of a run (O58). -/

namespace Sys2Proof

open Machine

/-! ### The clauses of the session invariant that hold inside a step as well -/

/-- The session invariant without what holds between commands. -/
structure SessionCore (s : State) : Prop where
  activeNone : s.mode = .active → s.goaway = .none
  goingReceived : s.mode = .goingAway → ∃ g, s.goaway = .received g
  sentClosed : s.goaway = .sent → s.mode = .closed
  closedEmpty : s.mode = .closed →
    s.streams = [] ∧ s.urgent = [] ∧ s.tierq = emptyQueues ∧ s.pending = []
  receivingLive : s.phase = .receiving → s.mode ≠ .fault

theorem sessionCore_of_inv {s : State} (h : SessionInv s) : SessionCore s :=
  ⟨h.activeNone, h.goingReceived, h.sentClosed, h.closedEmpty, h.receivingLive⟩

/-- On an open session, whatever leaves mode, GOAWAY status and phase alone keeps the core. -/
theorem SessionCore.of_same {s t : State} (h : SessionCore s) (hopen : s.mode ≠ .closed)
    (hmode : t.mode = s.mode) (hgoaway : t.goaway = s.goaway) (hphase : t.phase = s.phase) :
    SessionCore t where
  activeNone := by rw [hmode, hgoaway]; exact h.activeNone
  goingReceived := by rw [hmode, hgoaway]; exact h.goingReceived
  sentClosed := by rw [hmode, hgoaway]; exact h.sentClosed
  closedEmpty := fun hclosed => absurd (hmode.symm.trans hclosed) hopen
  receivingLive := by rw [hmode, hphase]; exact h.receivingLive

/-- A frame leaves mode and GOAWAY status alone, or is a GOAWAY. -/
theorem RxChange.modes {f : Instr} {s t : State} (h : RxChange f s t) :
    (t.mode = s.mode ∧ t.goaway = s.goaway) ∨
      (t.mode = .goingAway ∧ ∃ lastGood, t.goaway = .received lastGood) := by
  cases h with
  | tell | reply | record | remove | abort | finish | openPeer | seen | sessionCredit | limit =>
    exact .inl ⟨rfl, rfl⟩
  | queue =>
    rw [enqueue_eq]
    exact .inl ⟨rfl, rfl⟩
  | initialWindow v t hf hadjust =>
    obtain ⟨_, -, rfl⟩ := adjustInitialWindow_eq_ok.1 hadjust
    exact .inl ⟨rfl, rfl⟩
  | goingAway lastGood => exact .inr ⟨rfl, lastGood, rfl⟩

theorem RxChange.sessionCore {f : Instr} {s t : State} (h : RxChange f s t) (hopen : s.mode ≠ .closed)
    (hcore : SessionCore s) : SessionCore t := by
  obtain ⟨hmode, hgoaway⟩ | ⟨hmode, lastGood, hgoaway⟩ := h.modes
  · exact hcore.of_same hopen hmode hgoaway h.frame.phase
  · exact
      { activeNone := fun hactive => absurd (hmode.symm.trans hactive) nofun
        goingReceived := fun _ => ⟨lastGood, hgoaway⟩
        sentClosed := fun hsent => absurd (hgoaway.symm.trans hsent) nofun
        closedEmpty := fun hclosed => absurd (hmode.symm.trans hclosed) nofun
        receivingLive := fun _ hfault => absurd (hmode.symm.trans hfault) nofun }

theorem Change.sessionCore {s t : State} (h : Change s t) (hcore : SessionCore s) : SessionCore t := by
  cases h with
  | take | cut | ready | nextId => exact { hcore with }
  | ret => exact { hcore with receivingLive := nofun }
  | buffer chunk hlive =>
    obtain ⟨hopen, -⟩ := running_of_live hlive
    have hnofault : s.mode ≠ .fault := fun hfault =>
      ne_true_of_eq_false hlive (ended_iff.2 (.inr hfault))
    exact { hcore with receivingLive := fun _ => hnofault }
  | frame f _ hrun _ hchange => exact hchange.sessionCore hrun.1 hcore
  | torn => exact ⟨nofun, nofun, fun _ => rfl, fun _ => ⟨rfl, rfl, rfl, rfl⟩, fun _ => nofun⟩
  | fault hidle hlive =>
    obtain ⟨hopen, -⟩ := running_of_live hlive
    exact ⟨nofun, nofun, fun hsent => absurd (hcore.sentClosed hsent) hopen, nofun,
      fun hreceiving => absurd (hidle.symm.trans hreceiving) nofun⟩
  | accept sid r bytes fin hrun | opens sid tier hrun => exact hcore.of_same hrun.1 rfl rfl rfl
  | syn sid tier hb hrun =>
    rw [enqueue_eq]
    exact hcore.of_same hrun.1 rfl rfl rfl
  | drain hlive =>
    rw [drain_eq]
    exact hcore.of_same (running_of_live hlive).1 rfl rfl rfl
  | send f u buf hrun hnext =>
    rw [next_eq hnext]
    exact hcore.of_same hrun.1 rfl rfl rfl
  | tearDown hmode hleft =>
    obtain ⟨g, hg⟩ := hcore.goingReceived hmode
    exact ⟨nofun, nofun, fun hsent => absurd (hg.symm.trans hsent) nofun,
      fun _ => nothingLeft_iff.1 hleft, fun _ => nofun⟩

/-! ### Between commands -/

/-- What holds between commands, and of a session closed inside an `OnBytes`. -/
structure SessionRest (s : State) : Prop where
  receivingClosed : s.phase = .receiving → s.mode = .closed → s.rxBuf = []
  idleReturned : s.phase = .idle → s.events = [] ∧ s.tx = []
  idleShort : s.phase = .idle → rxShort s.rxBuf
  idleSent : s.phase = .idle → s.txReady = true → s.urgent = [] ∧ s.tierq = emptyQueues

/-- A step that ends a command leaves a short buffer and, with the transport ready, nothing to send. -/
theorem sessionRest_ret {s : State} (result : Result) (hshort : rxShort s.rxBuf)
    (hsent : s.txReady = true → s.urgent = [] ∧ s.tierq = emptyQueues) :
    SessionRest (ret result s) where
  receivingClosed := nofun
  idleReturned := fun _ => ⟨rfl, rfl⟩
  idleShort := fun _ => hshort
  idleSent := fun _ => hsent

/-- A step that goes on with an `OnBytes` leaves the buffer of a closed session empty. -/
theorem sessionRest_receiving {s : State} (hphase : s.phase = .receiving)
    (hclosed : s.mode = .closed → s.rxBuf = []) : SessionRest s where
  receivingClosed := fun _ => hclosed
  idleReturned := fun hidle => absurd (hidle.symm.trans hphase) nofun
  idleShort := fun hidle => absurd (hidle.symm.trans hphase) nofun
  idleSent := fun hidle => absurd (hidle.symm.trans hphase) nofun

theorem rxShort_nil : rxShort [] := .inl (by decide)

theorem commandBody_frame {s u : State} (h : CommandBody s u) :
    u.mode = s.mode ∧ u.rxBuf = s.rxBuf := by
  cases h with
  | ready | error | accept => exact ⟨rfl, rfl⟩
  | opens | opensTaken =>
    rw [enqueue_eq]
    exact ⟨rfl, rfl⟩

theorem rxBuf_of_epilogue {s t : State} (h : epilogue s = .next t) : t.rxBuf = s.rxBuf := by
  rw [epilogue_eq h]

theorem ended_congr {s t : State} (h : t.mode = s.mode) : ended t = ended s := by
  rw [ended, ended, h]

theorem stepCase_sessionRest {s t : State} (hinv : SessionInv s) (h : StepCase s t) :
    SessionRest t := by
  cases h with
  | waits => exact ⟨hinv.receivingClosed, hinv.idleReturned, hinv.idleShort, hinv.idleSent⟩
  | refused c rest result hidle | faulted c rest result hidle =>
    exact sessionRest_ret result (hinv.idleShort hidle) (hinv.idleSent hidle)
  | buffered c rest chunk hidle hinbox hlive =>
    obtain ⟨hopen, -⟩ := running_of_live hlive
    exact sessionRest_receiving rfl fun hclosed => absurd hclosed hopen
  | closes => exact sessionRest_ret _ rxShort_nil fun _ => ⟨rfl, rfl⟩
  | runs c rest result u v hidle hinbox hlive hbody hepilogue =>
    obtain ⟨hmode, hbuf⟩ := commandBody_frame hbody
    have hlive' : ended u = false := (ended_congr (s := s) hmode).trans hlive
    refine sessionRest_ret result ?_ (epilogue_empty hlive' hepilogue)
    rw [rxBuf_of_epilogue hepilogue, hbuf]
    exact hinv.idleShort hidle
  | received v hphase hend hepilogue =>
    refine sessionRest_ret .ok ?_ ?_
    · rw [rxBuf_of_epilogue hepilogue]
      obtain hclosed | hshort := hend
      · rw [hinv.receivingClosed hphase hclosed]
        exact rxShort_nil
      · exact hshort
    · cases hlive : ended s with
      | false => exact epilogue_empty hlive hepilogue
      | true =>
        have hclosed := (ended_iff.1 hlive).resolve_right (hinv.receivingLive hphase)
        obtain ⟨-, hurgent, htierq, -⟩ := hinv.closedEmpty hclosed
        rw [epilogue_of_ended hlive] at hepilogue
        cases hepilogue
        exact fun _ => ⟨hurgent, htierq⟩
  | fatalTurn n cause hphase => exact sessionRest_receiving hphase fun _ => rfl
  | skipped n hphase hopen => exact sessionRest_receiving hphase fun hclosed => absurd hclosed hopen
  | frame n f _ hphase hopen htier hexec =>
    obtain ⟨u, hu, hend⟩ := exec_eq_next hexec
    have hframe := rxRun_frame hu
    have hreceiving : u.phase = .receiving := hframe.phase.trans hphase
    obtain rfl | ⟨cause, rfl⟩ := hend
    · exact sessionRest_receiving hreceiving fun hclosed => absurd hclosed (hframe.stillOpen hopen)
    · exact sessionRest_receiving (s := afterFatal cause u) hreceiving fun _ => rfl

/-- Settles O49. -/
theorem sessionInvKept : Obligations.SessionInvKept := by
  unfold Obligations.SessionInvKept
  intro s t hinv h
  cases hreset : resetsNext s with
  | true =>
    obtain ⟨c, rest, -, rfl⟩ := step_of_reset hreset h
    exact { sessionInv_ofCfg c with }
  | false =>
    have hcore := changes_keep (fun _ _ hchange => hchange.sessionCore) (changes_of_step hreset h)
      (sessionCore_of_inv hinv)
    have hrest := stepCase_sessionRest hinv (stepCase hreset h)
    exact { hcore, hrest with }

/-! ### The changes of mode -/

/-- How far a session has come: it only goes on (R351). -/
def modeRank : Mode → Nat
  | .active => 0
  | .goingAway => 1
  | .closed => 2
  | .fault => 2

/-- The mode stays, or goes on. -/
def ModeStep (m m' : Mode) : Prop := m' = m ∨ modeRank m < modeRank m'

theorem ModeStep.trans {a b c : Mode} (h : ModeStep a b) (h' : ModeStep b c) : ModeStep a c := by
  obtain rfl | hlt := h
  · exact h'
  · obtain rfl | hlt' := h'
    · exact .inr hlt
    · exact .inr (hlt.trans hlt')

theorem modeRank_lt_of_live {m : Mode} (hclosed : m ≠ .closed) (hfault : m ≠ .fault) :
    modeRank m < 2 := by
  cases m with
  | active | goingAway => decide
  | closed => exact absurd rfl hclosed
  | fault => exact absurd rfl hfault

theorem modeStep_goingAway {m : Mode} (h : modeRank m < 2) : ModeStep m .goingAway := by
  cases m with
  | active => exact .inr Nat.zero_lt_one
  | goingAway => exact .inl rfl
  | closed | fault => exact absurd h (lt_irrefl 2)

theorem modeStep_iff {m m' : Mode} : ModeStep m m' ↔
    m' = m ∨ (m = .active ∧ (m' = .goingAway ∨ m' = .closed ∨ m' = .fault)) ∨
      (m = .goingAway ∧ (m' = .closed ∨ m' = .fault)) := by
  cases m <;> cases m' <;> simp [ModeStep, modeRank]

/-- A session that runs, and is not faulted inside an `OnBytes`, is live. -/
theorem modeRank_lt_of_running {s : State} (hrun : Running s) (hcore : SessionCore s) :
    modeRank s.mode < 2 := by
  refine modeRank_lt_of_live hrun.1 ?_
  cases hphase : s.phase with
  | idle => exact hrun.2 hphase
  | receiving => exact hcore.receivingLive hphase

theorem Change.modeStep {s t : State} (h : Change s t) (hcore : SessionCore s) :
    ModeStep s.mode t.mode := by
  cases h with
  | take | ret | buffer | cut | ready | accept | opens | nextId => exact .inl rfl
  | frame f _ hrun _ hchange =>
    obtain ⟨hmode, -⟩ | ⟨hmode, -⟩ := hchange.modes
    · exact .inl hmode
    · rw [hmode]
      exact modeStep_goingAway (modeRank_lt_of_running hrun hcore)
  | torn _ _ hrun => exact .inr (modeRank_lt_of_running hrun hcore)
  | fault hidle hlive => exact .inr (modeRank_lt_of_running (running_of_live hlive) hcore)
  | syn =>
    rw [enqueue_eq]
    exact .inl rfl
  | drain =>
    rw [drain_eq]
    exact .inl rfl
  | send f u buf hrun hnext =>
    rw [next_eq hnext]
    exact .inl rfl
  | tearDown hmode =>
    rw [hmode]
    exact .inr (show modeRank .goingAway < modeRank .closed by decide)

/-- Settles O55. -/
theorem modeChanges : Obligations.ModeChanges := by
  unfold Obligations.ModeChanges
  intro s t hinv hreset h
  have hkept := changes_keep (P := fun u => SessionCore u ∧ ModeStep s.mode u.mode)
    (fun _ _ hchange ⟨hcore, hmode⟩ =>
      ⟨hchange.sessionCore hcore, hmode.trans (hchange.modeStep hcore)⟩)
    (changes_of_step hreset h) ⟨sessionCore_of_inv hinv, .inl rfl⟩
  exact modeStep_iff.1 hkept.2

/-! ### The items to the transport host -/

/-- What a change sends. -/
inductive TxEvent (s t : State) : Prop
  | nothing (htx : txSoFar t = txSoFar s) (hmode : t.mode = .closed ↔ s.mode = .closed)
  | frame (buf : Bytes) (htx : txSoFar t = txSoFar s ++ [.txBytes buf]) (hopen : s.mode ≠ .closed)
      (hopen' : t.mode ≠ .closed)
  | close (before : List TxItem) (htx : txSoFar t = txSoFar s ++ (before ++ [.txClose]))
      (hbefore : .txClose ∉ before) (hopen : s.mode ≠ .closed) (hclosed : t.mode = .closed)

theorem txSoFar_congr {s t : State} (htrace : t.trace = s.trace) (htx : t.tx = s.tx) :
    txSoFar t = txSoFar s := by
  rw [txSoFar, txSoFar, htrace, htx]

theorem txSoFar_append {s t : State} {items : List TxItem} (htrace : t.trace = s.trace)
    (htx : t.tx = s.tx ++ items) : txSoFar t = txSoFar s ++ items := by
  rw [txSoFar, txSoFar, htrace, htx, List.append_assoc]

theorem txSoFar_ret (result : Result) (s : State) : txSoFar (ret result s) = txSoFar s := by
  simp [txSoFar, ret]

theorem TxEvent.of_same {s t : State} (htrace : t.trace = s.trace) (htx : t.tx = s.tx)
    (hmode : t.mode = s.mode) : TxEvent s t :=
  .nothing (txSoFar_congr htrace htx) (by rw [hmode])

theorem Change.txEvent {s t : State} (h : Change s t) : TxEvent s t := by
  cases h with
  | take | buffer | cut | ready | accept | opens | nextId => exact .of_same rfl rfl rfl
  | ret result => exact .nothing (txSoFar_ret result s) Iff.rfl
  | frame f _ hrun _ hchange =>
    have hframe := hchange.frame
    exact .nothing (txSoFar_congr hframe.trace hframe.tx)
      (iff_of_false (hframe.stillOpen hrun.1) hrun.1)
  | torn status evs hrun =>
    refine .close _ (txSoFar_append rfl (List.append_assoc _ _ _)) ?_ hrun.1 rfl
    split
    next => simp
    next => exact List.not_mem_nil
  | fault hidle hlive =>
    obtain ⟨hopen, -⟩ := running_of_live hlive
    exact .nothing rfl (iff_of_false nofun hopen)
  | syn =>
    rw [enqueue_eq]
    exact .of_same rfl rfl rfl
  | drain =>
    rw [drain_eq]
    exact .of_same rfl rfl rfl
  | send f u buf hrun hnext =>
    rw [next_eq hnext]
    exact .frame buf (txSoFar_append rfl rfl) hrun.1 hrun.1
  | tearDown hmode =>
    exact .close [] (txSoFar_append rfl rfl) List.not_mem_nil (by rw [hmode]; nofun) rfl

/-- What the changes of a step send, from `s` on (R338, R376). -/
def SentSince (s t : State) : Prop :=
  ∃ items, txSoFar t = txSoFar s ++ items ∧
    (s.mode = .closed → items = [] ∧ t.mode = .closed) ∧
    (s.mode ≠ .closed → t.mode = .closed →
      ∃ before, items = before ++ [.txClose] ∧ .txClose ∉ before) ∧
    (t.mode ≠ .closed → .txClose ∉ items)

theorem SentSince.refl (s : State) : SentSince s s :=
  ⟨[], (List.append_nil _).symm, fun h => ⟨rfl, h⟩, fun h h' => absurd h' h, fun _ => List.not_mem_nil⟩

theorem TxEvent.sentSince {s t u : State} (h : TxEvent t u) (hs : SentSince s t) : SentSince s u := by
  obtain ⟨items, htx, hover, hcloses, hnone⟩ := hs
  cases h with
  | nothing htx' hmode =>
    rw [← hmode] at hover hcloses
    exact ⟨items, htx'.trans htx, hover, hcloses, fun hu => hnone (mt hmode.2 hu)⟩
  | frame buf htx' hopen hopen' =>
    refine ⟨items ++ [.txBytes buf], by rw [htx', htx, List.append_assoc],
      fun hs => absurd (hover hs).2 hopen, fun _ hu => absurd hu hopen', fun _ hmem => ?_⟩
    obtain hold | hnew := List.mem_append.1 hmem
    · exact hnone hopen hold
    · cases List.mem_singleton.1 hnew
  | close before htx' hbefore hopen hclosed =>
    refine ⟨items ++ (before ++ [.txClose]), by rw [htx', htx, List.append_assoc],
      fun hs => absurd (hover hs).2 hopen,
      fun _ _ => ⟨items ++ before, (List.append_assoc _ _ _).symm, fun hmem => ?_⟩,
      fun hu => absurd hclosed hu⟩
    exact (List.mem_append.1 hmem).elim (hnone hopen) hbefore

theorem sentSince_of_step {s t : State} (hreset : resetsNext s = false) (h : step s = .next t) :
    SentSince s t :=
  changes_keep (P := SentSince s) (fun _ _ hchange hs => hchange.txEvent.sentSince hs)
    (changes_of_step hreset h) (.refl s)

/-- Settles O58. -/
theorem transportClosedOnce : Obligations.TransportClosedOnce := by
  unfold Obligations.TransportClosedOnce
  intro s t hreset h
  obtain ⟨items, htx, hover, hcloses, hnone⟩ := sentSince_of_step hreset h
  exact ⟨items, htx, fun hs => (hover hs).1, hcloses, hnone⟩

end Sys2Proof
end

section
/-! PROOF. The pending writes (O50): each is of a stream that may send, a write with FIN is the last of
its stream, and between commands each is held back by credit or by an earlier write. -/

namespace Sys2Proof

open Machine

/-! ### Streams that may send -/

/-- The stream may send, and is marked if FIN waits on it. -/
def Sendable (s : State) (sid : StreamId) (fin : Bool) : Prop :=
  ∃ r, tableGet s.streams sid = some r ∧ CanSend r ∧ (fin = true → r.localFinQueued = true)

theorem Sendable.congr {s t : State} {sid : StreamId} {fin : Bool} (h : Sendable s sid fin)
    (hget : tableGet t.streams sid = tableGet s.streams sid) : Sendable t sid fin := by
  obtain ⟨r, hr, hsend⟩ := h
  exact ⟨r, hget.trans hr, hsend⟩

/-- Another stream's record does not matter, and one's own may be rewritten. -/
theorem Sendable.put {s : State} {k sid : StreamId} {fin : Bool} {r r' : Stream} (h : Sendable s k fin)
    (hget : tableGet s.streams sid = some r) (hsend : CanSend r → CanSend r')
    (hmarked : r.localFinQueued = true → r'.localFinQueued = true) :
    Sendable (putStream sid r' s) k fin := by
  by_cases hk : sid = k
  case neg => exact h.congr (tableGet_put_ne _ _ hk)
  case pos =>
    subst hk
    obtain ⟨q, hq, hcan, hfin⟩ := h
    rw [hget] at hq
    cases hq
    exact ⟨r', tableGet_put_self _ _ _, hsend hcan, fun hf => hmarked (hfin hf)⟩

theorem Sendable.ne_of_none {s : State} {k sid : StreamId} {fin : Bool} (h : Sendable s k fin)
    (hget : tableGet s.streams sid = none) : sid ≠ k := by
  rintro rfl
  obtain ⟨r, hr, -⟩ := h
  rw [hget] at hr
  cases hr

theorem Sendable.ne_of_not_canSend {s : State} {k sid : StreamId} {fin : Bool} {r : Stream}
    (h : Sendable s k fin) (hget : tableGet s.streams sid = some r) (hdone : ¬ CanSend r) :
    sid ≠ k := by
  rintro rfl
  obtain ⟨q, hq, hcan, -⟩ := h
  rw [hget] at hq
  cases hq
  exact hdone hcan

/-! ### The clauses that hold inside a step as well -/

/-- Of two writes of a stream, the earlier one has no FIN. -/
def FinLast (ws : List PendingWrite) : Prop :=
  ws.Pairwise fun a b => a.fin = true → a.sid ≠ b.sid

/-- The pending-write invariant without the configuration and without what holds between commands. -/
structure PendingCore (s : State) : Prop where
  sendable : ∀ w ∈ s.pending, Sendable s w.sid w.fin
  finLast : FinLast s.pending
  closedNone : s.mode = .closed → s.pending = []
  receivingLive : s.phase = .receiving → s.mode ≠ .fault

theorem pendingCore_of_inv {s : State} (h : PendingInv s) : PendingCore s where
  sendable := h.sendable
  finLast := h.finLast
  closedNone := h.closedNone
  receivingLive := h.receivingLive

/-- On an open session: pending writes that only leave, of streams that still may send. -/
theorem PendingCore.of_sublist {s t : State} (h : PendingCore s)
    (hpending : t.pending.Sublist s.pending)
    (hsend : ∀ w ∈ t.pending, Sendable s w.sid w.fin → Sendable t w.sid w.fin)
    (hopen : t.mode ≠ .closed) (hlive : t.phase = .receiving → t.mode ≠ .fault) : PendingCore t where
  sendable := fun w hw => hsend w hw (h.sendable w (hpending.subset hw))
  finLast := h.finLast.sublist hpending
  closedNone := fun hclosed => absurd hclosed hopen
  receivingLive := hlive

theorem RxChange.receivingLive {f : Instr} {s t : State} (h : RxChange f s t)
    (hlive : s.phase = .receiving → s.mode ≠ .fault) : t.phase = .receiving → t.mode ≠ .fault := by
  rw [h.frame.phase]
  obtain ⟨hmode, -⟩ | ⟨hmode, -⟩ := h.modes
  · rwa [hmode]
  · rw [hmode]
    exact fun _ => nofun

/-- What waits after a change by a frame waited before, and its stream still may send. -/
theorem RxChange.pending {f : Instr} {s t : State} (h : RxChange f s t) :
    t.pending.Sublist s.pending ∧
      ∀ w ∈ t.pending, Sendable s w.sid w.fin → Sendable t w.sid w.fin := by
  cases h with
  | tell | reply | seen | sessionCredit | limit | goingAway => exact ⟨.refl _, fun _ _ hw => hw⟩
  | queue sid g =>
    rw [enqueue_eq]
    exact ⟨.refl _, fun _ _ hw => hw⟩
  | record sid r r' hf hget hkept =>
    exact ⟨.refl _, fun _ _ hw => hw.put hget hkept.canSend hkept.marked⟩
  | remove sid | abort sid =>
    refine ⟨List.filter_sublist, fun w hw hsend => hsend.congr ?_⟩
    have hne : w.sid ≠ sid := by simpa [withoutStreams] using (List.mem_filter.1 hw).2
    rw [withoutStreams_one]
    exact tableGet_erase_ne _ hne.symm
  | finish sid r hf hget hdone =>
    exact ⟨.refl _, fun _ _ hw => hw.congr (tableGet_erase_ne _ (hw.ne_of_not_canSend hget hdone))⟩
  | openPeer sid tier hf hsyn hver htier hsid hpeer hunseen hget =>
    exact ⟨.refl _, fun _ _ hw => hw.congr (tableGet_put_ne _ _ (hw.ne_of_none hget))⟩
  | initialWindow v t hf hadjust =>
    obtain ⟨_, -, rfl⟩ := adjustInitialWindow_eq_ok.1 hadjust
    refine ⟨.refl _, fun w _ hw => ?_⟩
    obtain ⟨r, hr, hsend, hfin⟩ := hw
    exact ⟨{ r with sendWindow := r.sendWindow + (v.toNat - s.peerInitialWindow.val) },
      by rw [tableGet_map, hr]; rfl, hsend, hfin⟩

/-- An accepted write is its stream's first with FIN, and stands last (R302). -/
theorem pendingCore_accept {s : State} (hcore : PendingCore s) (hopen : s.mode ≠ .closed)
    {sid : StreamId} {r : Stream} (bytes : Bytes) (fin : Bool) (hget : tableGet s.streams sid = some r)
    (hsend : CanSend r) (hfin : r.localFinQueued = false) :
    PendingCore { s with
      pending := s.pending ++ [⟨sid, bytes, fin⟩]
      streams := if fin then tablePut s.streams sid { r with localFinQueued := true }
        else s.streams } where
  sendable := fun w hw => by
    obtain hold | hnew := List.mem_append.1 hw
    · have hs := hcore.sendable w hold
      cases fin with
      | false => exact hs
      | true => exact hs.put (r' := { r with localFinQueued := true }) hget id fun _ => rfl
    · obtain rfl := List.mem_singleton.1 hnew
      cases fin with
      | false => exact ⟨r, hget, hsend, nofun⟩
      | true => exact ⟨_, tableGet_put_self _ _ _, hsend, fun _ => rfl⟩
  finLast := by
    refine List.pairwise_append.2 ⟨hcore.finLast, List.pairwise_singleton _ _, fun a ha b hb hafin => ?_⟩
    obtain rfl := List.mem_singleton.1 hb
    intro heq
    obtain ⟨q, hq, -, hmarked⟩ := hcore.sendable a ha
    rw [heq, hget] at hq
    cases hq
    exact absurd ((hmarked hafin).symm.trans hfin) nofun
  closedNone := fun hclosed => absurd hclosed hopen
  receivingLive := hcore.receivingLive

/-! ### DRAIN -/

theorem sendable_queuePieces {s : State} {sid k : StreamId} {r : Stream} {fin last : Bool}
    {sent : List Bytes} (hget : tableGet s.streams sid = some r) (h : Sendable s k fin) :
    Sendable (queuePieces sid r last sent s) k fin := by
  by_cases hk : sid = k
  case neg => exact h.congr (tableGet_queuePieces_ne hk)
  case pos =>
    subst hk
    obtain ⟨q, hq, hsend, hfin⟩ := h
    rw [hget] at hq
    cases hq
    exact ⟨_, tableGet_queuePieces hget, hsend, hfin⟩

/-- The gate takes the right to send only from the stream of a finished write with FIN. -/
theorem sendable_drainWrite {s u : State} {sid k : StreamId} {rem : Bytes} {left : Option Bytes}
    {turns : Nat} {fin fin' : Bool} (hgate : drainWrite turns sid rem fin s = (u, left))
    (hk : k ≠ sid ∨ left ≠ none ∨ fin = false) (h : Sendable s k fin') : Sendable u k fin' := by
  cases hget : tableGet s.streams sid with
  | none =>
    rw [drainWrite_of_unknown hget] at hgate
    cases hgate
    exact h
  | some r =>
    rw [drainWrite_eq_cut turns rem fin hget, Prod.mk.injEq] at hgate
    obtain ⟨rfl, hleft⟩ := hgate
    unfold afterGate
    split
    next hlast =>
      rw [hleft] at hlast
      have hne : k ≠ sid := hk.resolve_right fun hother => hother.elim (absurd hlast.1)
        fun hfin => absurd (hlast.2.symm.trans hfin) nofun
      obtain ⟨-, -, -, hothers, -⟩ := finishLocal_frame sid
        (queuePieces sid r true (cutWrite s.cfg.maxDataPayload.val turns
          (min r.sendWindow s.sessionSendWindow) rem).1 s)
      exact (sendable_queuePieces hget h).congr (hothers k hne)
    next => exact sendable_queuePieces hget h

/-- A write as the walk knows it: its stream and its FIN. -/
def writeKey (w : PendingWrite) : StreamId × Bool := (w.sid, w.fin)

theorem finLast_iff {ws : List PendingWrite} :
    FinLast ws ↔ (ws.map writeKey).Pairwise fun a b => a.2 = true → a.1 ≠ b.1 := by
  rw [FinLast, List.pairwise_map]
  rfl

/-- What the walk leaves waiting are some of the writes, in their order. -/
theorem drainFrom_keys (ws : List PendingWrite) (stuck : List StreamId) (s : State) :
    ((drainFrom ws stuck s).2.map writeKey).Sublist (ws.map writeKey) := by
  induction ws generalizing stuck s with
  | nil => exact .refl _
  | cons w rest ih =>
    by_cases hstuck : w.sid ∈ stuck
    case pos =>
      rw [drainFrom_of_stuck hstuck]
      exact (ih stuck s).cons_cons _
    case neg =>
      cases hgate : drainWrite (w.bytes.length + 1) w.sid w.bytes w.fin s with
      | mk u left =>
        cases left with
        | none =>
          rw [drainFrom_of_done hstuck rest hgate]
          exact (ih stuck u).cons _
        | some rem =>
          rw [drainFrom_of_left hstuck rest hgate]
          exact (ih _ u).cons_cons _

/-- What the walk leaves waiting is of streams that may send afterwards. -/
theorem drainFrom_sendable {ws : List PendingWrite} {stuck : List StreamId} {s : State}
    (hsend : ∀ w ∈ ws, Sendable s w.sid w.fin) (hlast : FinLast ws) :
    ∀ w ∈ (drainFrom ws stuck s).2, Sendable (drainFrom ws stuck s).1 w.sid w.fin := by
  induction ws generalizing stuck s with
  | nil => nofun
  | cons w rest ih =>
    obtain ⟨hw, hrest⟩ := List.forall_mem_cons.1 hsend
    obtain ⟨hfirst, hlast'⟩ := List.pairwise_cons.1 hlast
    by_cases hstuck : w.sid ∈ stuck
    case pos =>
      rw [drainFrom_of_stuck hstuck]
      exact List.forall_mem_cons.2
        ⟨hw.congr (drainFrom_stuck_frame rest hstuck s).1, ih hrest hlast'⟩
    case neg =>
      cases hgate : drainWrite (w.bytes.length + 1) w.sid w.bytes w.fin s with
      | mk u left =>
        cases left with
        | none =>
          rw [drainFrom_of_done hstuck rest hgate]
          refine ih (fun v hv => sendable_drainWrite hgate ?_ (hrest v hv)) hlast'
          cases hfin : w.fin with
          | false => exact .inr (.inr rfl)
          | true => exact .inl (hfirst v hv hfin).symm
        | some rem =>
          rw [drainFrom_of_left hstuck rest hgate]
          have hkept (k : StreamId) (fin : Bool) : Sendable s k fin → Sendable u k fin :=
            sendable_drainWrite hgate (.inr (.inl nofun))
          refine List.forall_mem_cons.2 ⟨(hkept _ _ hw).congr
            (drainFrom_stuck_frame rest List.mem_cons_self u).1,
            ih (fun v hv => hkept _ _ (hrest v hv)) hlast'⟩

theorem pendingCore_drain {s : State} (hcore : PendingCore s) (hopen : s.mode ≠ .closed) :
    PendingCore (drain s) := by
  have hmode : (drain s).mode = s.mode := by rw [drain_eq]
  have hphase : (drain s).phase = s.phase := by rw [drain_eq]
  refine ⟨drainFrom_sendable hcore.sendable hcore.finLast, finLast_iff.2 ?_,
    fun hclosed => absurd (hmode.symm.trans hclosed) hopen,
    by rw [hmode, hphase]; exact hcore.receivingLive⟩
  exact (finLast_iff.1 hcore.finLast).sublist (drainFrom_keys s.pending [] s)

/-! ### Every change -/

theorem Change.pendingCore {s t : State} (h : Change s t) (hcore : PendingCore s) : PendingCore t := by
  cases h with
  | take | cut | ready | nextId => exact { hcore with }
  | ret => exact { hcore with receivingLive := nofun }
  | buffer chunk hlive =>
    have hnofault : s.mode ≠ .fault := fun hfault =>
      ne_true_of_eq_false hlive (ended_iff.2 (.inr hfault))
    exact { hcore with receivingLive := fun _ => hnofault }
  | frame f _ hrun _ hchange =>
    obtain ⟨hpending, hsend⟩ := hchange.pending
    exact hcore.of_sublist hpending hsend (hchange.frame.stillOpen hrun.1)
      (hchange.receivingLive hcore.receivingLive)
  | torn => exact ⟨nofun, .nil, fun _ => rfl, fun _ => nofun⟩
  | fault hidle =>
    exact { hcore with
      closedNone := nofun
      receivingLive := fun hreceiving => absurd (hidle.symm.trans hreceiving) nofun }
  | accept sid r bytes fin hrun hget hsend hfin =>
    exact pendingCore_accept hcore hrun.1 bytes fin hget hsend hfin
  | opens sid tier hrun hid hfresh =>
    obtain ⟨-, -, hget⟩ := hfresh
    exact { hcore with
      sendable := fun w hw =>
        have hs := hcore.sendable w hw
        hs.congr (tableGet_put_ne _ _ (hs.ne_of_none hget)) }
  | syn sid =>
    rw [enqueue_eq]
    exact { hcore with }
  | drain hlive => exact pendingCore_drain hcore (running_of_live hlive).1
  | send f u buf hrun hnext =>
    rw [next_eq hnext]
    exact { hcore with }
  | tearDown hmode hleft =>
    obtain ⟨-, -, -, hpending⟩ := nothingLeft_iff.1 hleft
    exact { hcore with
      closedNone := fun _ => hpending
      receivingLive := fun _ => nofun }

/-! ### Between commands -/

/-- Every write with bytes is held back by credit, or by an earlier write of its stream. -/
def Blocked (s : State) : Prop :=
  ∀ before w after, s.pending = before ++ w :: after → w.bytes ≠ [] →
    (∃ e ∈ before, e.sid = w.sid) ∨ ∃ a, avail w.sid s = some a ∧ a ≤ 0

theorem blocked_of_nil {s : State} (h : s.pending = []) : Blocked s := by
  intro before w after hpending
  rw [h] at hpending
  exact absurd hpending (List.append_ne_nil_of_right_ne_nil _ (List.cons_ne_nil _ _)).symm

/-- What DRAIN holds back is blocked, as every piece may be at least one byte long (R7). -/
theorem blocked_of_allHeld {s : State} (hheld : AllHeld s.pending [] s) (hc : s.cfg.wf = true)
    (hcore : PendingCore s) : Blocked s := by
  obtain ⟨-, hcap, -⟩ := Cfg.wf_iff.1 hc
  intro before w after hpending hbytes
  obtain hbefore | hmem | hcredit := hheld before w after hpending
  · exact .inl hbefore
  · cases hmem
  · refine .inr ?_
    obtain hunknown | ⟨a, ha, -, hspent⟩ := hcredit
    · obtain ⟨r, hr, -⟩ := hcore.sendable w (by rw [hpending]; exact List.mem_append_cons_self)
      rw [avail_of_get hr] at hunknown
      cases hunknown
    · exact ⟨a, ha, hspent hbytes (Nat.ne_of_gt hcap)⟩

theorem stepCase_blocked {s t : State} (hinv : PendingInv s) (h : StepCase s t) (hc : t.cfg.wf = true)
    (hcore : PendingCore t) (hidle' : t.phase = .idle) : Blocked t := by
  cases h with
  | waits => exact hinv.blocked hidle'
  | refused c rest result hidle | faulted c rest result hidle => exact hinv.blocked hidle
  | buffered => cases hidle'
  | closes => exact blocked_of_nil rfl
  | runs c rest result u v hidle hinbox hlive hbody hepilogue =>
    obtain ⟨hmode, -⟩ := commandBody_frame hbody
    have hlive' : ended u = false := (ended_congr (s := s) hmode).trans hlive
    have hheld := epilogue_allHeld hlive' hepilogue
    exact blocked_of_allHeld (s := ret result v) hheld hc hcore
  | received v hphase hend hepilogue =>
    cases hlive : ended s with
    | false =>
      have hheld := epilogue_allHeld hlive hepilogue
      exact blocked_of_allHeld (s := ret .ok v) hheld hc hcore
    | true =>
      have hclosed := (ended_iff.1 hlive).resolve_right (hinv.receivingLive hphase)
      rw [epilogue_of_ended hlive] at hepilogue
      cases hepilogue
      exact blocked_of_nil (hinv.closedNone hclosed)
  | fatalTurn n cause hphase => exact absurd (hphase.symm.trans hidle') nofun
  | skipped n hphase => exact absurd (hphase.symm.trans hidle') nofun
  | frame n f _ hphase hopen htier hexec =>
    obtain ⟨-, -, -, -, -, hsame, -⟩ := execFrame f _ t hexec
    exact absurd (hphase.symm.trans (hsame.symm.trans hidle')) nofun

/-- Settles O50. -/
theorem pendingInvKept : Obligations.PendingInvKept := by
  unfold Obligations.PendingInvKept
  intro s t hinv h
  cases hreset : resetsNext s with
  | true =>
    obtain ⟨c, rest, hinbox, rfl⟩ := step_of_reset hreset h
    obtain ⟨hc, hconfig⟩ := configInv_afterReset hinbox hinv.config
    exact { pendingInv_ofCfg hc with config := hconfig }
  | false =>
    have hchanges := changes_of_step hreset h
    have hconfig := changes_keep (fun _ _ hchange => hchange.configInv) hchanges hinv.config
    have hcore := changes_keep (fun _ _ hchange => hchange.pendingCore) hchanges
      (pendingCore_of_inv hinv)
    exact
      { config := hconfig
        sendable := hcore.sendable
        finLast := hcore.finLast
        closedNone := hcore.closedNone
        receivingLive := hcore.receivingLive
        blocked := stepCase_blocked hinv (stepCase hreset h) hconfig.cfg hcore }

end Sys2Proof
end

section
/-! PROOF. Each stream's end is reported once, in the step that removes it (O57; R339). The events that
report the end of a stream and its place in the table add up to the same number as long as the stream is
not opened (`Ledger`). -/

namespace Sys2Proof

open Machine

/-! ### The ledger of a stream -/

/-- How often the end of stream `k` has been reported since the last `Reset`. -/
def endings (k : StreamId) (s : State) : Nat := (eventsSoFar s).countP (closes k)

/-- 1 if the stream is in the table, else 0. -/
def presence (k : StreamId) (T : StreamTable) : Nat := if (tableGet T k).isSome = true then 1 else 0

/-- The reported ends of stream `k` and its place in the table add up to the same, and it does not enter
the table. -/
structure Ledger (k : StreamId) (s t : State) : Prop where
  total : endings k t + presence k t.streams = endings k s + presence k s.streams
  absent : presence k t.streams ≤ presence k s.streams

theorem Ledger.refl (k : StreamId) (s : State) : Ledger k s s := ⟨rfl, le_rfl⟩

theorem Ledger.trans {k : StreamId} {s t u : State} (h : Ledger k s t) (h' : Ledger k t u) :
    Ledger k s u := ⟨h'.total.trans h.total, h'.absent.trans h.absent⟩

/-- The second part first: it knows the state in between. -/
theorem Ledger.after {k : StreamId} {s t u : State} (h' : Ledger k t u) (h : Ledger k s t) :
    Ledger k s u := h.trans h'

theorem presence_of_none {k : StreamId} {T : StreamTable} (h : tableGet T k = none) :
    presence k T = 0 := by
  simp [presence, h]

theorem presence_of_isSome {k : StreamId} {T : StreamTable} (h : (tableGet T k).isSome = true) :
    presence k T = 1 := if_pos h

theorem presence_put (k sid : StreamId) (r : Stream) (T : StreamTable) :
    presence k (tablePut T sid r) = if sid = k then 1 else presence k T := by
  unfold presence
  rw [tableGet_put]
  split
  next => rfl
  next => rfl

theorem presence_put_of_get {sid : StreamId} {r : Stream} {T : StreamTable}
    (hget : tableGet T sid = some r) (r' : Stream) (k : StreamId) :
    presence k (tablePut T sid r') = presence k T := by
  rw [presence_put]
  split
  next heq => rw [presence_of_isSome (by rw [← heq, hget]; rfl)]
  next => rfl

theorem presence_erase (k sid : StreamId) (T : StreamTable) :
    presence k (tableErase T sid) = if sid = k then 0 else presence k T := by
  unfold presence
  rw [tableGet_erase]
  split
  next => rfl
  next => rfl

/-- The books balance when the new events report what left the table. -/
theorem ledger_of_events {k : StreamId} {s t : State} {evs : List Event} (htrace : t.trace = s.trace)
    (hevents : t.events = s.events ++ evs)
    (hcount : evs.countP (closes k) + presence k t.streams = presence k s.streams) : Ledger k s t := by
  have hends : endings k t = endings k s + evs.countP (closes k) := by
    rw [endings, endings, eventsSoFar, eventsSoFar, htrace, hevents, ← List.append_assoc,
      List.countP_append]
  exact ⟨by omega, by omega⟩

/-- Nothing is reported and the table keeps the stream, or keeps it out. -/
theorem ledger_of_quiet {k : StreamId} {s t : State} (htrace : t.trace = s.trace)
    (hevents : t.events = s.events) (hpresence : presence k t.streams = presence k s.streams) :
    Ledger k s t :=
  ledger_of_events (evs := []) htrace (by rw [hevents, List.append_nil]) (by simpa using hpresence)

/-- A stream of the table leaves it, and its end is reported. -/
theorem ledger_of_removed {k sid : StreamId} {s t : State} {reason : CloseReason}
    (hin : (tableGet s.streams sid).isSome = true) (htrace : t.trace = s.trace)
    (hevents : t.events = s.events ++ [.onStreamClosed sid reason])
    (hstreams : t.streams = tableErase s.streams sid) : Ledger k s t := by
  refine ledger_of_events htrace hevents ?_
  rw [hstreams, presence_erase]
  by_cases heq : sid = k
  · subst heq
    simp [closes, presence_of_isSome hin]
  · simp [closes, heq]

theorem ledger_ret (k : StreamId) (result : Result) (s : State) : Ledger k s (ret result s) := by
  have hends : endings k (ret result s) = endings k s := by
    simp [endings, eventsSoFar, ret]
  exact ⟨by rw [hends]; rfl, le_rfl⟩

/-! ### The end of all streams -/

theorem mem_tableKeys_iff {k : StreamId} {T : StreamTable} :
    k ∈ tableKeys T ↔ (tableGet T k).isSome = true := by
  rw [Option.isSome_iff_ne_none, Ne, tableGet_eq_none_iff, tableKeys, List.mem_map]
  push Not
  exact Iff.rfl

theorem tableKeys_nodup {T : StreamTable} (h : tableWf T = true) : (tableKeys T).Nodup := by
  have hpairs := List.pairwise_map.1 (tableWf_iff.1 h)
  refine List.pairwise_map.2 (hpairs.imp fun hlt heq => ?_)
  rw [heq] at hlt
  exact lt_irrefl _ hlt

/-- Every stream of a table in canonical form is aborted once. -/
theorem countP_abortEvents {T : StreamTable} (h : tableWf T = true) (k : StreamId) :
    (abortEvents T).countP (closes k) = presence k T := by
  have hkeys : (abortEvents T).countP (closes k) = (tableKeys T).count k := by
    rw [abortEvents, List.countP_map, List.count]
    exact List.countP_congr fun sid _ => by simp [closes]
  rw [hkeys, presence]
  split
  next hin => exact List.count_eq_one_of_mem (tableKeys_nodup h) (mem_tableKeys_iff.2 hin)
  next hin => exact List.count_eq_zero_of_not_mem (mt mem_tableKeys_iff.1 hin)

theorem ledger_tornDown {s : State} (h : tableWf s.streams = true) (k : StreamId) (status : Word32)
    {evs : List Event} (hevs : evs.countP (closes k) = 0) :
    Ledger k s (tornDown status (abortEvents s.streams ++ evs) s) := by
  refine ledger_of_events rfl rfl ?_
  rw [List.countP_append, countP_abortEvents h, hevs]
  rfl

theorem ledger_afterFatal {s : State} (h : tableWf s.streams = true) (k : StreamId)
    (cause : FatalCause) : Ledger k s (afterFatal cause s) :=
  ledger_tornDown h k _ rfl

/-! ### DRAIN and the epilogue -/

theorem GateChange.ledger {s t : State} (h : GateChange s t) (k : StreamId) : Ledger k s t := by
  cases h with
  | pieces sid r fin sent hget =>
    refine ledger_of_quiet rfl rfl ?_
    by_cases hsent : sent = []
    · subst hsent
      rw [queuePieces_nil]
    · simp only [queuePieces, if_neg hsent]
      exact presence_put_of_get hget _ k
  | half sid r hget => exact ledger_of_quiet rfl rfl (presence_put_of_get hget _ k)
  | finish sid r hget => exact ledger_of_removed (sid := sid) (by simp [hget]) rfl rfl rfl
  | rewait => exact ledger_of_quiet rfl rfl rfl

/-- The peer may still send on the stream, so this side's FIN does not remove it. -/
def PeerOpen (k : StreamId) (s : State) : Prop :=
  ∃ r, tableGet s.streams k = some r ∧ (r.state = .opened ∨ r.state = .halfClosedLocal)

/-- DRAIN removes no stream on which the peer may still send. -/
theorem GateChange.peerOpen {s t : State} (h : GateChange s t) {k : StreamId} (hk : PeerOpen k s) :
    PeerOpen k t := by
  obtain ⟨q, hq, hstate⟩ := hk
  cases h with
  | pieces sid r fin sent hget =>
    by_cases heq : sid = k
    · subst heq
      rw [hget] at hq
      cases hq
      exact ⟨_, tableGet_queuePieces hget, hstate⟩
    · exact ⟨q, (tableGet_queuePieces_ne heq).trans hq, hstate⟩
  | half sid r hget =>
    by_cases heq : sid = k
    · subst heq
      exact ⟨_, tableGet_put_self _ _ _, .inr rfl⟩
    · exact ⟨q, (tableGet_put_ne _ _ heq).trans hq, hstate⟩
  | finish sid r hget hdone =>
    refine ⟨q, (tableGet_erase_ne _ ?_).trans hq, hstate⟩
    rintro rfl
    rw [hget] at hq
    cases hq
    obtain hremote | hclosed := hdone
    · simp [hremote] at hstate
    · simp [hclosed] at hstate
  | rewait => exact ⟨q, hq, hstate⟩

/-- After DRAIN the epilogue touches neither the table nor the events. -/
theorem epilogue_books {s t : State} (hlive : ended s = false) (h : epilogue s = .next t) :
    t.trace = (drain s).trace ∧ t.events = (drain s).events ∧ t.streams = (drain s).streams := by
  obtain ⟨v, hv, rfl⟩ := epilogue_of_live hlive h
  rw [tearDownIfDone_eq, pumpTurns_eq hv]
  exact ⟨rfl, rfl, rfl⟩

theorem ledger_drain (k : StreamId) (s : State) : Ledger k s (drain s) :=
  drain_keeps (P := Ledger k s) (fun _ _ hchange h => h.trans (hchange.ledger k)) (.refl k s)

theorem ledger_epilogue {s t : State} (k : StreamId) (h : epilogue s = .next t) : Ledger k s t := by
  cases hlive : ended s with
  | true =>
    rw [epilogue_of_ended hlive] at h
    cases h
    exact .refl k s
  | false =>
    obtain ⟨htrace, hevents, hstreams⟩ := epilogue_books hlive h
    exact (ledger_drain k s).trans (ledger_of_quiet htrace hevents (by rw [hstreams]))

theorem peerOpen_epilogue {s t : State} {k : StreamId} (hlive : ended s = false) (hk : PeerOpen k s)
    (h : epilogue s = .next t) : PeerOpen k t := by
  obtain ⟨-, -, hstreams⟩ := epilogue_books hlive h
  obtain ⟨r, hr, hstate⟩ := drain_keeps (P := PeerOpen k) (fun _ _ hchange => hchange.peerOpen) hk
  exact ⟨r, hstreams ▸ hr, hstate⟩

/-! ### Frames -/

/-- A change by a frame that neither opens a stream nor is a GOAWAY keeps the books. -/
theorem RxChange.ledger {f : Instr} {s t : State} (h : RxChange f s t)
    (hsyn : f.controlType? ≠ some .synStream) (hgoaway : f.controlType? ≠ some .goaway) (k : StreamId) :
    Ledger k s t := by
  cases h with
  | tell ev hev =>
    refine ledger_of_events rfl rfl ?_
    simp [hev k]
  | reply | sessionCredit | limit => exact ledger_of_quiet rfl rfl rfl
  | queue sid g =>
    rw [enqueue_eq]
    exact ledger_of_quiet rfl rfl rfl
  | record sid r r' hf hget => exact ledger_of_quiet rfl rfl (presence_put_of_get hget r' k)
  | remove sid reason hf hin =>
    refine ledger_of_removed hin rfl rfl ?_
    rw [withoutStreams_one]
    rfl
  | finish sid r hf hget => exact ledger_of_removed (sid := sid) (by simp [hget]) rfl rfl rfl
  | openPeer _ _ _ hkind | seen _ _ hkind => exact absurd hkind hsyn
  | abort _ hkind | goingAway _ hkind => exact absurd hkind hgoaway
  | initialWindow v t hf hadjust =>
    obtain ⟨_, -, rfl⟩ := adjustInitialWindow_eq_ok.1 hadjust
    refine ledger_of_quiet rfl rfl ?_
    simp only [presence, tableGet_map, Option.isSome_map]

theorem RxRun.ledger {f : Instr} {s t : State} (h : RxRun f s t)
    (hsyn : f.controlType? ≠ some .synStream) (hgoaway : f.controlType? ≠ some .goaway) (k : StreamId) :
    Ledger k s t := by
  induction h with
  | refl => exact .refl k s
  | tail _ hchange ih => exact ih.trans (hchange.ledger hsyn hgoaway k)

/-- The table stays canonical under the changes of a frame. -/
theorem tableWf_rxRun {f : Instr} {s t : State} (h : RxRun f s t) (hwf : tableWf s.streams = true) :
    tableWf t.streams = true := by
  induction h with
  | refl => exact hwf
  | tail _ hchange ih =>
    cases hchange with
    | tell | reply | seen | sessionCredit | limit | goingAway => exact ih
    | queue sid g =>
      rw [enqueue_eq]
      exact ih
    | record sid r r' => exact tableWf_put sid r' ih
    | remove sid | abort sid =>
      rw [withoutStreams_one]
      exact tableWf_erase sid ih
    | finish sid => exact tableWf_erase sid ih
    | openPeer sid tier => exact tableWf_put sid _ ih
    | initialWindow v t hf hadjust => exact adjustInitialWindow_wf ih hadjust

/-- A GOAWAY aborts each of the streams it names once. -/
theorem ledger_abortAbove {sids : List StreamId} {s : State} (lastGood k : StreamId)
    (hnodup : sids.Nodup) (hin : ∀ sid ∈ sids, (tableGet s.streams sid).isSome = true) :
    Ledger k s (abortAbove lastGood sids s) := by
  induction sids generalizing s with
  | nil => exact .refl k s
  | cons sid rest ih =>
    obtain ⟨hsid, hrest⟩ := List.forall_mem_cons.1 hin
    obtain ⟨hnew, hnodup'⟩ := List.nodup_cons.1 hnodup
    unfold abortAbove
    split
    next =>
      have hgone : (abortStream sid s).streams = tableErase s.streams sid := rfl
      refine (ledger_of_removed (t := abortStream sid s) hsid rfl rfl hgone).trans
        (ih hnodup' fun j hj => ?_)
      have hne : sid ≠ j := by
        rintro rfl
        exact hnew hj
      rw [hgone, tableGet_erase_ne _ hne]
      exact hrest j hj
    next => exact ih hnodup' hrest

theorem ledger_receiveGoaway {s : State} (hwf : tableWf s.streams = true) (lastGood k : StreamId)
    (status : Word32) : Ledger k s (receiveGoaway lastGood status s) := by
  have htold : Ledger k s (goawayTold lastGood status s) :=
    ledger_of_events rfl rfl (by simp [closes, goawayTold])
  exact htold.trans (ledger_abortAbove lastGood k (tableKeys_nodup hwf) fun _ => mem_tableKeys_iff.1)

/-! ### The books of a step -/

/-- A step either keeps the books of stream `k`, or opens it. -/
def Tally (k : StreamId) (s t : State) : Prop :=
  Ledger k s t ∨ tableGet s.streams k = none ∧ (tableGet t.streams k).isSome = true ∧
    endings k t = endings k s

/-- A stream is opened; for every other the books are kept. -/
theorem tally_of_opened {s t : State} {sid k : StreamId} {r : Stream} {evs : List Event}
    (hget : tableGet s.streams sid = none) (htrace : t.trace = s.trace)
    (hevents : t.events = s.events ++ evs) (hevs : evs.countP (closes k) = 0)
    (hstreams : t.streams = tablePut s.streams sid r) : Tally k s t := by
  by_cases heq : sid = k
  · subst heq
    refine .inr ⟨hget, by rw [hstreams, tableGet_put_self]; rfl, ?_⟩
    rw [endings, endings, eventsSoFar, eventsSoFar, htrace, hevents, ← List.append_assoc,
      List.countP_append, hevs, Nat.add_zero]
  · refine .inl (ledger_of_events htrace hevents ?_)
    rw [hevs, hstreams, presence_put, if_neg heq, Nat.zero_add]

theorem tally_synStream {s t : State} (hinv : TableInv s) {ver : VersionTag} {flags : Byte}
    {sid assoc : StreamId} {tier : Fin 8} {hb : Bytes} (k : StreamId)
    (h : exec (.synStream ver flags sid assoc tier hb) s = .next t) : Tally k s t := by
  by_cases hver : ver = wireVersion s.cfg
  case neg =>
    rw [exec_of_otherVersion rfl hver] at h
    cases h
    exact .inl (ledger_afterFatal hinv.canonical k _)
  case pos =>
  subst hver
  by_cases hsid : sid = 0
  case pos =>
    subst hsid
    have hzero : exec (.synStream (wireVersion s.cfg) flags 0 assoc tier hb) s =
        .next (afterFatal (.sessionProtocolError .streamIdZero) s) :=
      (versionChecked_of_eq rfl _).trans (streamNamed_zero s _)
    rw [hzero] at h
    cases h
    exact .inl (ledger_afterFatal hinv.canonical k _)
  case neg =>
  obtain ⟨hknown, hunknown, hseen, hlimit, hnoFin, hfin⟩ :=
    synStreamReceived s flags sid assoc tier hb hinv hsid
  cases hlocal : isLocal s.cfg.role sid with
  | true =>
    cases hget : tableGet s.streams sid with
    | none =>
      rw [hunknown hlocal hget] at h
      cases h
      exact .inl (ledger_of_quiet rfl rfl rfl)
    | some r =>
      have hin : (tableGet s.streams sid).isSome = true := by simp [hget]
      rw [hknown hlocal hin] at h
      cases h
      exact .inl ((rxRun_streamError (f := .rstStream 0 0 sid 0) rfl hin _ _).ledger nofun nofun k)
  | false =>
    by_cases hunseen : s.lastPeerId.toNat < sid.toNat
    case neg =>
      rw [hseen hlocal (not_lt.1 hunseen)] at h
      cases h
      exact .inl (ledger_afterFatal hinv.canonical k _)
    case pos =>
    by_cases hroom : countPeer s < s.cfg.maxPeerStreams
    case neg =>
      rw [hlimit hlocal hunseen (not_lt.1 hroom)] at h
      cases h
      exact .inl (ledger_of_quiet rfl rfl rfl)
    case pos =>
    have hget := tableGet_of_unseen hinv hlocal hunseen
    by_cases hflag : flags &&& s.cfg.params.flagFin = 0
    · rw [hnoFin hlocal hunseen hroom hflag] at h
      cases h
      exact tally_of_opened hget rfl rfl rfl rfl
    · rw [hfin hlocal hunseen hroom hflag] at h
      cases h
      exact tally_of_opened hget rfl rfl rfl rfl

theorem tally_goaway {s t : State} (hinv : TableInv s) {ver : VersionTag} {flags : Byte}
    {lastGood : StreamId} {status : Word32} (k : StreamId)
    (h : exec (.goaway ver flags lastGood status) s = .next t) : Ledger k s t := by
  by_cases hver : ver = wireVersion s.cfg
  · subst hver
    rw [exec_goaway] at h
    cases h
    exact ledger_receiveGoaway hinv.canonical lastGood k status
  · rw [exec_of_otherVersion rfl hver] at h
    cases h
    exact ledger_afterFatal hinv.canonical k _

theorem tally_exec {f : Instr} {s t : State} (hinv : TableInv s) (k : StreamId)
    (h : exec f s = .next t) : Tally k s t := by
  have hother (hsyn : f.controlType? ≠ some .synStream) (hgoaway : f.controlType? ≠ some .goaway) :
      Ledger k s t := by
    obtain ⟨u, hu, hend⟩ := exec_eq_next h
    have hledger := hu.ledger hsyn hgoaway k
    obtain rfl | ⟨cause, rfl⟩ := hend
    · exact hledger
    · exact hledger.trans (ledger_afterFatal (tableWf_rxRun hu hinv.canonical) k cause)
  cases f with
  | synStream => exact tally_synStream hinv k h
  | goaway => exact .inl (tally_goaway hinv k h)
  | data | synReply | rstStream | settings | ping | headers | windowUpdate =>
    exact .inl (hother nofun nofun)

/-- The body of a command and its epilogue. A stream just opened is open on the peer's side, so the
epilogue leaves it in the table. -/
theorem tally_command {s u v : State} (k : StreamId) (hlive : ended u = false) (hbody : CommandBody s u)
    (hepilogue : epilogue u = .next v) : Tally k s v := by
  have hledger := ledger_epilogue k hepilogue
  cases hbody with
  | ready => exact .inl (hledger.after (ledger_of_quiet rfl rfl rfl))
  | error sid status reason hin =>
    exact .inl (((rxRun_streamError (f := .rstStream 0 0 sid 0) rfl hin status reason).ledger
      nofun nofun k).trans hledger)
  | accept sid r bytes fin hget =>
    refine .inl (hledger.after (ledger_of_quiet rfl rfl ?_))
    cases fin with
    | false => rfl
    | true => exact presence_put_of_get hget _ k
  | opens sid tier hb hid hfresh =>
    obtain ⟨-, -, hget⟩ := hfresh
    rw [enqueue_eq] at hepilogue hledger hlive
    by_cases heq : sid = k
    case neg =>
      refine .inl (hledger.after (ledger_of_quiet rfl rfl ?_))
      simp only [putStream, presence_put, if_neg heq]
    case pos =>
      subst heq
      obtain ⟨r, hr, -⟩ := peerOpen_epilogue (k := sid) hlive
        ⟨_, tableGet_put_self _ _ _, .inl rfl⟩ hepilogue
      have hsome : (tableGet v.streams sid).isSome = true := by simp [hr]
      have htotal := hledger.total
      rw [presence_of_isSome hsome, presence_of_isSome (by simp [putStream])] at htotal
      exact .inr ⟨hget, hsome, Nat.add_right_cancel htotal⟩
  | opensTaken sid tier hb hid hfresh htier hlen streams hstreams =>
    rw [enqueue_eq] at hledger
    refine .inl (hledger.after (ledger_of_quiet rfl rfl ?_))
    obtain rfl | ⟨r, hget, -, rfl⟩ := hstreams
    · rfl
    · exact presence_put_of_get hget _ k

theorem tally_ret {k : StreamId} {s t : State} (h : Tally k s t) (result : Result) :
    Tally k s (ret result t) := by
  have hret := ledger_ret k result t
  obtain hledger | ⟨hnone, hsome, hends⟩ := h
  · exact .inl (hledger.trans hret)
  · exact .inr ⟨hnone, hsome, (Nat.add_right_cancel hret.total).trans hends⟩

/-- What does not touch the table and the events beforehand does not matter. -/
theorem Tally.of_same {k : StreamId} {s s' t : State} (h : Tally k s' t) (htrace : s'.trace = s.trace)
    (hevents : s'.events = s.events) (hstreams : s'.streams = s.streams) : Tally k s t := by
  have hbefore : Ledger k s s' := ledger_of_quiet htrace hevents (by rw [hstreams])
  obtain hledger | ⟨hnone, hsome, hends⟩ := h
  · exact .inl (hbefore.trans hledger)
  · have htotal := hbefore.total
    rw [hstreams] at hnone htotal
    exact .inr ⟨hnone, hsome, hends.trans (Nat.add_right_cancel htotal)⟩

theorem Tally.refl (k : StreamId) (s : State) : Tally k s s := .inl (.refl k s)

theorem tally_stepCase {s t : State} (hinv : TableInv s) (k : StreamId) (h : StepCase s t) :
    Tally k s t := by
  cases h with
  | waits => exact .refl k s
  | refused c rest result | faulted c rest result =>
    exact (tally_ret (.refl k _) result).of_same rfl rfl rfl
  | buffered | skipped => exact .inl (ledger_of_quiet rfl rfl rfl)
  | closes c rest status =>
    have htorn := ledger_tornDown (s := { s with inbox := rest }) hinv.canonical k status (evs := []) rfl
    rw [List.append_nil] at htorn
    exact (tally_ret (.inl htorn) .ok).of_same rfl rfl rfl
  | runs c rest result u v hidle hinbox hlive hbody hepilogue =>
    obtain ⟨hmode, -⟩ := commandBody_frame hbody
    have hlive' : ended u = false := (ended_congr (s := s) hmode).trans hlive
    exact (tally_ret (tally_command k hlive' hbody hepilogue) result).of_same rfl rfl rfl
  | received v hphase hend hepilogue => exact tally_ret (.inl (ledger_epilogue k hepilogue)) .ok
  | fatalTurn n cause =>
    have hfatal := ledger_afterFatal (s := cutFrame n s) hinv.canonical k cause
    exact Tally.of_same (.inl hfatal) rfl rfl rfl
  | frame n f _ hphase hopen htier hexec =>
    exact (tally_exec (s := cutFrame n s) { hinv with } k hexec).of_same rfl rfl rfl

/-- Whether the stream leaves the table. -/
theorem ite_leaves (k : StreamId) (T U : StreamTable) :
    (if (tableGet T k).isSome = true ∧ tableGet U k = none then 1 else 0) =
      presence k T - presence k U := by
  unfold presence
  cases tableGet T k with
  | none => simp
  | some r => cases tableGet U k <;> simp

/-- Settles O57. -/
theorem closedExactlyOnce : Obligations.ClosedExactlyOnce := by
  unfold Obligations.ClosedExactlyOnce
  intro s t sid hinv hreset h
  change endings sid t = endings sid s + _
  rw [ite_leaves]
  obtain ⟨htotal, habsent⟩ | ⟨hnone, hsome, hends⟩ := tally_stepCase hinv sid (stepCase hreset h)
  · omega
  · rw [hends, presence_of_none hnone, Nat.zero_sub, Nat.add_zero]

end Sys2Proof
end

section
/-! PROOF. The transmit stream only grows (R60), and no step reads the model's own records of finished
commands (log entries 10 and 14): O60. `SameRun` says of an operation that it commutes with a change of
the records, `Appends` of a step that it only appends to them. -/

namespace Sys2Proof

open Machine

/-! ### Other records -/

/-- The state with other records of the finished commands. -/
def withRecords (trace earlier : List Return) (s : State) : State :=
  { s with trace := trace, earlier := earlier }

theorem withAside_nil (trace earlier : List Return) (s : State) :
    withAside [] trace earlier s = withRecords trace earlier s := by
  simp [withAside, withRecords]

/-- At `s` the operation neither reads nor writes the records. -/
def SameRun (s : State) (K : State → Outcome) : Prop :=
  ∀ trace earlier, K (withRecords trace earlier s) = mapNext (withRecords trace earlier) (K s)

/-- At `s` the operation only appends to the trace, and what it appends does not depend on the
records. -/
def Appends (s : State) (K : State → Outcome) : Prop :=
  ∀ t, K s = .next t → ∃ new, t.trace = s.trace ++ new ∧ t.earlier = s.earlier ∧
    ∀ trace earlier, K (withRecords trace earlier s) = .next (withRecords (trace ++ new) earlier t)

/-- The state reached has the records of `s`. -/
theorem SameRun.records {s t : State} {K : State → Outcome} (hK : SameRun s K) (h : K s = .next t) :
    t.trace = s.trace ∧ t.earlier = s.earlier := by
  have hsame : K s = mapNext (withRecords s.trace s.earlier) (K s) := hK s.trace s.earlier
  rw [h, mapNext_next] at hsame
  have ht := Host.Outcome.next.inj hsame
  rw [ht]
  exact ⟨rfl, rfl⟩

theorem SameRun.appends {s : State} {K : State → Outcome} (hK : SameRun s K) : Appends s K := by
  intro t h
  obtain ⟨htrace, hearlier⟩ := hK.records h
  refine ⟨[], by rw [htrace, List.append_nil], hearlier, fun trace earlier => ?_⟩
  rw [hK, h, mapNext_next, List.append_nil]

/-- A command that ends appends what it returns. -/
theorem SameRun.appends_ret {s : State} {K : State → Outcome} (hK : SameRun s K)
    {result : State → Result}
    (hresult : ∀ trace earlier u, result (withRecords trace earlier u) = result u) :
    Appends s fun u => andThen (K u) fun v => .next (ret (result v) v) := by
  intro t h
  obtain ⟨v, hv, ht⟩ := andThen_eq_next.1 h
  cases ht
  obtain ⟨htrace, hearlier⟩ := hK.records hv
  refine ⟨[⟨result v, v.events, v.tx⟩], by rw [← htrace]; rfl, hearlier, fun trace earlier => ?_⟩
  simp only [hK trace earlier, hv, mapNext_next, andThen_next, hresult]
  rfl

/-- The operation is another one at `s`, whatever the records. -/
theorem Appends.congr {s : State} {K K' : State → Outcome} (h : Appends s K')
    (hK : ∀ trace earlier, K (withRecords trace earlier s) = K' (withRecords trace earlier s)) :
    Appends s K := by
  have hs : K s = K' s := hK s.trace s.earlier
  intro t ht
  obtain ⟨new, htrace, hearlier, hall⟩ := h t (hs.symm.trans ht)
  exact ⟨new, htrace, hearlier, fun trace earlier => (hK trace earlier).trans (hall trace earlier)⟩

section

variable (trace earlier : List Return)

/-! ### The epilogue -/

theorem finishLocal_withRecords (sid : StreamId) (s : State) :
    finishLocal sid (withRecords trace earlier s) = withRecords trace earlier (finishLocal sid s) := by
  simp only [← withAside_nil, finishLocal, orElseSame_transition_withAside, removeIfClosed_withAside]

theorem afterGate_withRecords (sid : StreamId) (r : Stream) (fin : Bool)
    (cut : List Bytes × Option Bytes) (s : State) :
    afterGate sid r fin cut (withRecords trace earlier s) =
      withRecords trace earlier (afterGate sid r fin cut s) := by
  have hpieces (last : Bool) : queuePieces sid r last cut.1 (withRecords trace earlier s) =
      withRecords trace earlier (queuePieces sid r last cut.1 s) := rfl
  unfold afterGate
  rw [hpieces, hpieces, finishLocal_withRecords, apply_ite (withRecords trace earlier)]

theorem drainWrite_withRecords (turns : Nat) (sid : StreamId) (rem : Bytes) (fin : Bool) (s : State) :
    drainWrite turns sid rem fin (withRecords trace earlier s) =
      (withRecords trace earlier (drainWrite turns sid rem fin s).1,
        (drainWrite turns sid rem fin s).2) := by
  cases hget : tableGet s.streams sid with
  | none =>
    rw [drainWrite_of_unknown hget, drainWrite_of_unknown (s := withRecords trace earlier s) hget]
  | some r =>
    rw [drainWrite_eq_cut turns rem fin hget,
      drainWrite_eq_cut turns rem fin (s := withRecords trace earlier s) hget, afterGate_withRecords]
    rfl

theorem drainFrom_withRecords (ws : List PendingWrite) (stuck : List StreamId) (s : State) :
    drainFrom ws stuck (withRecords trace earlier s) =
      (withRecords trace earlier (drainFrom ws stuck s).1, (drainFrom ws stuck s).2) := by
  induction ws generalizing stuck s with
  | nil => rfl
  | cons w rest ih =>
    by_cases hstuck : w.sid ∈ stuck
    case pos => rw [drainFrom_of_stuck hstuck, drainFrom_of_stuck hstuck, ih]
    case neg =>
      have hgate' := drainWrite_withRecords trace earlier (w.bytes.length + 1) w.sid w.bytes w.fin s
      cases hgate : drainWrite (w.bytes.length + 1) w.sid w.bytes w.fin s with
      | mk u left =>
        rw [hgate] at hgate'
        cases left with
        | none => rw [drainFrom_of_done hstuck rest hgate, drainFrom_of_done hstuck rest hgate', ih]
        | some rem => rw [drainFrom_of_left hstuck rest hgate, drainFrom_of_left hstuck rest hgate', ih]

theorem drain_withRecords (s : State) :
    drain (withRecords trace earlier s) = withRecords trace earlier (drain s) := by
  have hwalk := drainFrom_withRecords trace earlier s.pending [] s
  unfold drain
  rw [show (withRecords trace earlier s).pending = s.pending from rfl, hwalk]
  rfl

theorem next_withRecords (s : State) : next (withRecords trace earlier s) =
    (next s).map fun fu => (fu.1, withRecords trace earlier fu.2) := by
  unfold next
  rw [show (withRecords trace earlier s).urgent = s.urgent from rfl,
    show (withRecords trace earlier s).tierq = s.tierq from rfl]
  cases s.urgent with
  | cons f rest => rfl
  | nil =>
    cases firstNonEmpty s.tierq tiersInOrder with
    | none => rfl
    | some t => cases hqueue : s.tierq[t] <;> simp only [hqueue] <;> rfl

theorem txFrame_withRecords (f : Instr) (s : State) :
    txFrame f (withRecords trace earlier s) = mapNext (withRecords trace earlier) (txFrame f s) := by
  unfold txFrame
  rw [show (withRecords trace earlier s).cfg = s.cfg from rfl]
  cases encode s.cfg.params s.cfg.build f with
  | bytes | fault | refused => rfl

theorem pumpTurns_withRecords (turns : Nat) (s : State) : pumpTurns turns (withRecords trace earlier s) =
    mapNext (withRecords trace earlier) (pumpTurns turns s) := by
  induction turns generalizing s with
  | zero => rfl
  | succ turns ih =>
    unfold pumpTurns
    rw [next_withRecords, show (withRecords trace earlier s).txReady = s.txReady from rfl]
    cases s.txReady with
    | false => rfl
    | true =>
      cases next s with
      | none => rfl
      | some fu =>
        simp only [if_true, Option.map_some, txFrame_withRecords]
        exact mapNext_andThen _ _ ih

theorem tearDownIfDone_withRecords (s : State) :
    tearDownIfDone (withRecords trace earlier s) = withRecords trace earlier (tearDownIfDone s) := by
  unfold tearDownIfDone
  rw [apply_ite (withRecords trace earlier)]
  rfl

theorem epilogue_withRecords (s : State) : epilogue (withRecords trace earlier s) =
    mapNext (withRecords trace earlier) (epilogue s) := by
  unfold epilogue
  rw [show ended (withRecords trace earlier s) = ended s from rfl, drain_withRecords]
  cases ended s with
  | true => rfl
  | false =>
    simp only [Bool.false_eq_true, if_false]
    rw [pump, show queuedFrames (withRecords trace earlier (drain s)) = queuedFrames (drain s) from rfl,
      pumpTurns_withRecords, ← pump]
    exact mapNext_andThen _ _ fun v => congrArg Host.Outcome.next (tearDownIfDone_withRecords _ _ v)

end

/-- A change of state that leaves the records alone, and the epilogue after it. -/
theorem sameRun_epilogue {s : State} {F : State → State}
    (hF : ∀ trace earlier, F (withRecords trace earlier s) = withRecords trace earlier (F s)) :
    SameRun s fun u => epilogue (F u) := fun trace earlier => by
  simp only [hF, epilogue_withRecords]

theorem appends_epilogueThen {s : State} {F : State → State} (result : Result)
    (hF : ∀ trace earlier, F (withRecords trace earlier s) = withRecords trace earlier (F s)) :
    Appends s fun u => epilogueThen result (F u) :=
  (sameRun_epilogue hF).appends_ret (result := fun _ => result) fun _ _ _ => rfl

theorem appends_ret {s : State} {F : State → State} (result : Result)
    (hF : ∀ trace earlier, F (withRecords trace earlier s) = withRecords trace earlier (F s)) :
    Appends s fun u => .next (ret result (F u)) :=
  SameRun.appends_ret (K := fun u => .next (F u)) (fun trace earlier => congrArg _ (hF trace earlier))
    (result := fun _ => result) fun _ _ _ => rfl

/-! ### The commands -/

/-- Lines 8 and 9 of R300: the record of our own new stream. -/
def localRecord (sid : StreamId) (tier : Fin 8) (s : State) : State :=
  orElseSame (orElseSame s (openStream sid tier .ours s))
    (transition sid .sendSyn (orElseSame s (openStream sid tier .ours s)))

/-- Line 10 of R300: the SYN_STREAM queued on the new stream. -/
def announce (sid : StreamId) (tier : Fin 8) (hb : Bytes) (s : State) : State :=
  enqueue sid (ourSyn s.cfg sid tier hb) s

/-- Lines 7 to 10 of R300: the state before the epilogue. -/
def localOpened (tier : Fin 8) (hb : Bytes) (s : State) : State :=
  let sid : StreamId := BitVec.ofNat 31 s.nextStreamId
  announce sid tier hb (localRecord sid tier { s with nextStreamId := s.nextStreamId + 2 })

theorem openLocal_eq_epilogueThen (tier : Fin 8) (hb : Bytes) (s : State) : openLocal tier hb s =
    epilogueThen (.okId (BitVec.ofNat 31 s.nextStreamId)) (localOpened tier hb s) := rfl

theorem localRecord_withRecords (trace earlier : List Return) (sid : StreamId) (tier : Fin 8)
    (s : State) : localRecord sid tier (withRecords trace earlier s) =
      withRecords trace earlier (localRecord sid tier s) := by
  simp only [← withAside_nil, localRecord, orElseSame_openStream_withAside,
    orElseSame_transition_withAside]

theorem announce_withRecords (trace earlier : List Return) (sid : StreamId) (tier : Fin 8) (hb : Bytes)
    (s : State) : announce sid tier hb (withRecords trace earlier s) =
      withRecords trace earlier (announce sid tier hb s) := by
  simp only [← withAside_nil, announce, ← enqueue_withAside]
  rfl

theorem localOpened_withRecords (trace earlier : List Return) (tier : Fin 8) (hb : Bytes) (s : State) :
    localOpened tier hb (withRecords trace earlier s) =
      withRecords trace earlier (localOpened tier hb s) := by
  have hrecord := localRecord_withRecords trace earlier (BitVec.ofNat 31 s.nextStreamId) tier
    { s with nextStreamId := s.nextStreamId + 2 }
  exact (congrArg (announce _ tier hb) hrecord).trans (announce_withRecords ..)

theorem appends_cmdOpenStream {s : State} (hlive : ended s = false) (priority : Nat) (hb : Bytes) :
    Appends s (cmdOpenStream priority hb) := by
  cases hgone : goneAway s with
  | true =>
    exact (appends_ret _ (F := id) fun _ _ => rfl).congr fun trace earlier =>
      cmdOpenStream_of_goneAway (s := withRecords trace earlier s) hlive hb hgone
  | false =>
    cases htier : tierPolicy s.cfg priority with
    | none =>
      exact (appends_ret _ (F := fun u => { u with mode := .fault }) fun _ _ => rfl).congr
        fun trace earlier =>
          cmdOpenStream_of_tierFault (s := withRecords trace earlier s) hlive hb hgone htier
    | some tier =>
      by_cases hex : exhausted hb s
      · exact (appends_ret _ (F := id) fun _ _ => rfl).congr fun trace earlier =>
          cmdOpenStream_of_exhausted (s := withRecords trace earlier s) hlive hgone htier hex
      · exact (appends_epilogueThen (.okId (BitVec.ofNat 31 s.nextStreamId)) (F := localOpened tier hb)
          fun trace earlier => localOpened_withRecords trace earlier tier hb s).congr
          fun trace earlier =>
            (cmdOpenStream_of_room (s := withRecords trace earlier s) hlive hgone htier hex).trans
              (openLocal_eq_epilogueThen tier hb _)

theorem appends_cmdSendData {s : State} (hlive : ended s = false) (sid : StreamId) (bytes : Bytes)
    (fin : Bool) : Appends s (cmdSendData sid bytes fin) := by
  cases hget : tableGet s.streams sid with
  | none =>
    exact (appends_ret _ (F := id) fun _ _ => rfl).congr fun trace earlier =>
      cmdSendData_of_unknown (s := withRecords trace earlier s) hlive bytes fin hget
  | some r =>
    by_cases hfinished : (r.state ≠ .opened ∧ r.state ≠ .halfClosedRemote) ∨ r.localFinQueued = true
    case pos =>
      exact (appends_epilogueThen _ (F := afterStreamError sid s.cfg.params.rstProtocolError
        (.streamProtocolError .invalidTransition)) fun _ _ => rfl).congr fun trace earlier =>
        cmdSendData_of_finished (s := withRecords trace earlier s) hlive bytes fin hget hfinished
    case neg =>
      have hsend : r.state = .opened ∨ r.state = .halfClosedRemote := by tauto
      have hfin : r.localFinQueued = false := by simpa using (not_or.1 hfinished).2
      have hwaits := (sameRun_epilogue (s := s) (F := fun u => { u with
          pending := u.pending ++ [⟨sid, bytes, fin⟩]
          streams := if fin then tablePut u.streams sid { r with localFinQueued := true }
            else u.streams }) fun _ _ => rfl).appends_ret
        (result := fun t => if dataWaiting sid t then .pending else .ok) fun _ _ _ => rfl
      exact hwaits.congr fun trace earlier => Eq.trans
        (cmdSendData_of_sendable (s := withRecords trace earlier s) hlive bytes fin hget hsend hfin)
        (acceptWrite_eq ..)

theorem appends_cmdResetStream {s : State} (hlive : ended s = false) (sid : StreamId) (code : Word32) :
    Appends s (cmdResetStream sid code) := by
  cases hget : tableGet s.streams sid with
  | none =>
    exact (appends_ret _ (F := id) fun _ _ => rfl).congr fun trace earlier =>
      cmdResetStream_of_unknown (s := withRecords trace earlier s) hlive code hget
  | some r =>
    exact (appends_epilogueThen _ (F := afterStreamError sid code (.resetLocal code))
      fun _ _ => rfl).congr fun trace earlier =>
        cmdResetStream_of_known (s := withRecords trace earlier s) hlive code
          (by simp [withRecords, hget])

theorem appends_runCommand {s : State} {c : Command} (hreset : ∀ cfg, c ≠ .reset cfg) :
    Appends s (runCommand c) := by
  cases hlive : ended s with
  | true =>
    exact (appends_ret _ (F := id) fun _ _ => rfl).congr fun trace earlier =>
      runCommand_of_ended (s := withRecords trace earlier s) hlive hreset
  | false =>
    have hrun {K : State → Outcome} (hK : Appends s K) : Appends s fun u => unlessEnded u (K u) :=
      hK.congr fun trace earlier => unlessEnded_of_live (s := withRecords trace earlier s) hlive _
    cases c with
    | reset cfg => exact absurd rfl (hreset cfg)
    | onBytes chunk =>
      exact hrun (SameRun.appends
        (K := fun u => .next { u with rxBuf := u.rxBuf ++ chunk, phase := .receiving }) fun _ _ => rfl)
    | transportBlocked =>
      exact hrun (appends_epilogueThen .ok (F := fun u => { u with txReady := false }) fun _ _ => rfl)
    | transportWritable =>
      exact hrun (appends_epilogueThen .ok (F := fun u => { u with txReady := true }) fun _ _ => rfl)
    | openStream priority hb => exact appends_cmdOpenStream hlive priority hb
    | sendData sid bytes fin => exact appends_cmdSendData hlive sid bytes fin
    | resetStream sid code => exact appends_cmdResetStream hlive sid code
    | close status =>
      exact (appends_ret .ok (F := fun u => tornDown status (abortEvents u.streams) u)
        fun _ _ => rfl).congr fun trace earlier =>
          cmdClose_of_live (s := withRecords trace earlier s) hlive status

/-! ### A turn of the receive loop -/

theorem sameRun_fatal (cause : FatalCause) (s : State) : SameRun s (fatal cause) := by
  intro trace earlier
  rw [fatal_eq, fatal_eq]
  rfl

theorem appends_receiveTurn (s : State) : Appends s receiveTurn := by
  by_cases hwait : s.mode = .closed ∨ s.rxBuf.length < 8 ∨
      8 + headerLength s.rxBuf ≤ s.cfg.rxBufMax ∧ s.rxBuf.length < 8 + headerLength s.rxBuf
  case pos =>
    exact (appends_epilogueThen .ok (F := id) fun _ _ => rfl).congr fun trace earlier =>
      receiveTurn_of_waiting (s := withRecords trace earlier s) hwait
  case neg =>
    obtain ⟨hopen, hrest⟩ := not_or.1 hwait
    obtain ⟨hheader, hlong⟩ := not_or.1 hrest
    have hheader' := not_lt.1 hheader
    by_cases hcapacity : s.cfg.rxBufMax < 8 + headerLength s.rxBuf
    case pos =>
      exact (sameRun_fatal _ s).appends.congr fun trace earlier =>
        receiveTurn_of_overCapacity (s := withRecords trace earlier s) hopen hheader' hcapacity
    case neg =>
      have hpayload : 8 + headerLength s.rxBuf ≤ s.rxBuf.length :=
        not_lt.1 fun hshort => hlong ⟨not_lt.1 hcapacity, hshort⟩
      refine SameRun.appends fun trace earlier => ?_
      have hturn := receiveTurn_withAside [] trace earlier hopen hheader' hpayload
      rwa [withAside_nil, funext (withAside_nil trace earlier)] at hturn

/-! ### A step -/

theorem appends_step {s : State} (hreset : resetsNext s = false) : Appends s step := by
  have hno := mt resetsNext_iff.2 (ne_true_of_eq_false hreset)
  cases hphase : s.phase with
  | receiving =>
    exact (appends_receiveTurn s).congr fun trace earlier =>
      step_of_receiving (s := withRecords trace earlier s) hphase
  | idle =>
    cases hinbox : s.inbox with
    | nil =>
      exact (SameRun.appends (K := Host.Outcome.next) fun _ _ => rfl).congr fun trace earlier => by
        simp only [step, withRecords, hphase, takeCommand, hinbox]
    | cons c rest =>
      have hcommand : Appends { s with inbox := rest } (runCommand c) :=
        appends_runCommand fun cfg heq => hno ⟨hphase, cfg, rest, heq ▸ hinbox⟩
      intro t h
      rw [step_of_command hphase hinbox] at h
      obtain ⟨new, htrace, hearlier, hall⟩ := hcommand t h
      refine ⟨new, htrace, hearlier, fun trace earlier => ?_⟩
      rw [step_of_command (s := withRecords trace earlier s) hphase hinbox]
      exact hall trace earlier

/-- Settles O60. -/
theorem transmitStreamGrows : Obligations.TransmitStreamGrows := by
  unfold Obligations.TransmitStreamGrows
  intro s t h
  refine ⟨fun hreset => ?_, fun hreset => ⟨?_, appends_step hreset t h⟩⟩
  · obtain ⟨c, rest, -, rfl⟩ := step_of_reset hreset h
    rfl
  · obtain ⟨items, htx, -⟩ := sentSince_of_step hreset h
    refine ⟨items.flatMap TxItem.buf, ?_⟩
    change (txSoFar t).flatMap TxItem.buf = (txSoFar s).flatMap TxItem.buf ++ _
    rw [htx, List.flatMap_append]

end Sys2Proof
end
